-- ==== Sys2Proof/Word.lean ====
section
/-! DEFINITION. The byte of the lines and of Pass Memory, and the rank of a carriage station. -/

namespace Sys2Proof

/-- One byte of a frame, a drive link message or Pass Memory (12, R190). -/
abbrev Byte := BitVec 8

/-- A carriage station's place on the beam, 0 to 7 (R1). -/
abbrev Rank := Fin 8

end Sys2Proof
end

