-- ==== Sys2Proof/Config.lean ====
section
/-! DEFINITION. The numbers the spec fixes for every Lescor 280, and the one value it leaves open. -/

namespace Sys2Proof.Config

/-- The highest rail position (00_scope, Quantities). -/
def railTop : Nat := 33554431

/-- Where every saturating 16-bit count stops (00_scope, Quantities: ages). -/
def countTop : Nat := 65535

/-- The highest commanded speed, µm per interval (00_scope, Quantities). -/
def speedTop : Nat := 2000

/-- The greatest Z depth, µm below clear height (00_scope, Quantities). -/
def depthTop : Nat := 12000

/-- The greatest axial force value (00_scope, Quantities). -/
def forceTop : Nat := 4095

/-- The number of pass records (R56). -/
def recordCount : Nat := 512

/-- The bytes of one pass record: eight words of 32 bits (R56). -/
def recordBytes : Nat := 32

/-- The clamp of the distance d in a travel computation (R29). -/
def distanceClamp : Nat := 8388607

/-- The force age from which no force step is made (R108). -/
def forceHoldAge : Nat := 8

/-- The force age at which FORCE_LOST is found (R108). -/
def forceLostAge : Nat := 32

/-- The feedback age at which FEEDBACK_LOST is reported (R176). -/
def feedbackLostAge : Nat := 8

/-- How far short of the plunge depth the measured Z may stand at plunge completion (R104). -/
def plungeSlack : Nat := 20

/-- The longest payload of any frame a carriage receives (12.2). -/
def longestPayload : Nat := 131

/-- The entries an Open Joint List and a Closed Joint List hold (R124). -/
def jointCapacity : Nat := 4

/-- The replies the transmit queue holds (R149). -/
def replyCapacity : Nat := 3

/-- FREE VALUE (log 8). The position that stands where the spec names none: the position reached of a chain that ends
while p is unknown, and the p field of a STATION reply while p is unknown. It has no body, so no proof can rest on it. -/
opaque freePosition : Nat → BitVec 25

end Sys2Proof.Config
end

