-- ==== Sys2Proof/Syntax.lean ====
section
/-! DEFINITION. The commands: one constructor of `Instr` per row of spec/opcode_table.json, in the table's order. -/

namespace Sys2Proof

/-- What the part finds when power is applied (R1, R146, R178, R179). -/
structure PowerUpLines where
  straps : BitVec 3
  estopAsserted : Bool
  clampMade : Bool
  /-- another station's frame is under way on the peer line (R146) -/
  lineBusy : Bool
  deriving DecidableEq, Repr

/-- The order in which the three blocks that have no work row of their own take their work at one expiry: the Drive
Port's feedback age, the executor's turn, the Peer Line Interface's counts (R160, log 3). -/
inductive ExpiryOrder where
  | portExecutorLine
  | portLineExecutor
  | executorPortLine
  | executorLinePort
  | linePortExecutor
  | lineExecutorPort
  deriving DecidableEq, Repr

/-- The commands of the block (spec/opcode_table.json). A `frame` is the bytes received from the peer line, arbitration
field to check sequence; a `message` is the bytes received from the drive link. -/
inductive Instr where
  | powerUp (lines : PowerUpLines)
  | intervalClockExpiry (order : ExpiryOrder)
  | neighbourTableAgeing
  | entryGoesSilent (rank : Rank)
  | travelComputation
  | stall
  | holdExpired
  | headExpiryWork
  | spinTimeout
  | plungeTimeout
  | dwellEnd
  | forceLost
  | retractTimeout
  | pendingRetractStart
  | jointUnitExpiry
  | coolingRunsOut
  | pauseEnd
  | feedbackLost
  | demandMessage
  | beaconPeriodDue
  | holdOffEnd
  | frameStart (rivals : List Byte)
  | frameLeftLine
  | frameDiscarded (frame : List Byte)
  | beacon (frame : List Byte)
  | heldRecordStart
  | halt (frame : List Byte)
  | lineReset (frame : List Byte)
  | lineResetTakesEffect
  | setup (frame : List Byte)
  | jobStart (frame : List Byte)
  | jobClear (frame : List Byte)
  | override (frame : List Byte)
  | passLoad (frame : List Byte)
  | regionLoad (frame : List Byte)
  | statusRequestStation (frame : List Byte)
  | statusRequestCompletion (frame : List Byte)
  | statusRequestAttention (frame : List Byte)
  | statusRequestJoints (frame : List Byte)
  | statusRequestFormat (frame : List Byte)
  | feedbackReceived (message : List Byte)
  | feedbackTaken
  | spinUpComplete
  | plungeComplete
  | retractComplete
  | recordClose
  | emergencyStopAsserted
  | emergencyStopReleased
  | clampLineFalse
  | clampLineTrue
  deriving DecidableEq, Repr

end Sys2Proof
end

