-- ==== Sys2Proof/Machine/State.lean ====
section
/-! DEFINITION. The state of one station, block by block, as plain data, and the state after reset. The default of
every field is its power-up value. -/

namespace Sys2Proof.Machine

/-! ### Names the spec gives (00_scope, 12.6) -/

/-- R158. -/
inductive StationState where
  | unconfigured | idle | running | stopped
  deriving DecidableEq, Repr

/-- R71. -/
inductive ExecutorState where
  | idle | fetching | waitSlot | active | awaitHeadEnd | halting | stopped
  deriving DecidableEq, Repr

/-- R99. -/
inductive HeadState where
  | parked | spinningUp | plunging | dwelling | stirring | retracting | halted
  deriving DecidableEq, Repr

/-- UP for increasing position, DOWN for decreasing (00_scope, Terms). -/
inductive Direction where
  | up | down
  deriving DecidableEq, Repr

/-- R4. -/
inductive Liveness where
  | absent | live | silent
  deriving DecidableEq, Repr

/-- R124. -/
inductive OpenJointState where
  | pending | ready | void
  deriving DecidableEq, Repr

/-- R124. -/
inductive AwaitedState where
  | waiting | cooling | clear | void
  deriving DecidableEq, Repr

/-- R170. -/
inductive ResetCause where
  | powerUp | lineReset
  deriving DecidableEq, Repr

/-- R83. -/
inductive EndKind where
  | complete | short | voidAlt | programCheck | fault | halted | estop | rankConflict
  deriving DecidableEq, Repr

/-- Details of end kinds and codes of the secondary fault (R76 to R78, R83, R90, 12.6). -/
inductive Detail where
  | stall | holdExpired
  | invalidKind | indexRange | branchToBranch | branchFirst | startMismatch | zeroLength | direction | fieldRange
  | railRange | pathOpen | continueKind | jointPartner | jointGeometry | jointDuplicate | jointReused
  | clampOpen | spinTimeout | plungeTimeout | overload | clampLost | forceLost | retractTimeout | following
  | feedbackLost | driveReported
  | neighbourOrder | duplicateRank
  | estop
  deriving DecidableEq, Repr

/-- R182, in the bit order of 12.5. -/
inductive AttentionFlag where
  | notify | programCheck | fault | neighbourSilent | rankConflict | duplicateRank | stranger | fenceIntrusion
  | forceSaturated | jointVoided | setupIgnored | paramClamped | startRefused | clearRefused
  deriving DecidableEq, Repr

/-- The kind of material of a region window (R46). -/
inductive RegionKind where
  | solid | edge | opening
  deriving DecidableEq, Repr

/-- The kinds of record that ask for work or a jump; INVALID and unknown codes are none of them (R57). -/
inductive RecordKind where
  | weld | dry | move | pause | branch
  deriving DecidableEq, Repr

/-- The kinds of record that give the Travel Governor a motion target (R22). -/
inductive TravelKind where
  | weld | dry | move
  deriving DecidableEq, Repr

/-- The role a record is fetched in (R57). -/
inductive Role where
  | fresh | continuation
  deriving DecidableEq, Repr

/-! ### The blocks' data -/

/-- The SETUP constants in force with their defaults (9.3), the population mask apart. -/
structure Constants where
  spacing : Nat := 1500000
  accel : Nat := 4
  decel : Nat := 4
  beaconPeriod : Nat := 8
  staleLimit : Nat := 48
  railMin : Nat := 0
  railMax : Nat := 33554431
  stirLimit : Nat := 500
  stallLimit : Nat := 7500
  followLimit : Nat := 2000
  forceGain : Nat := 32
  maxTrimStep : Nat := 16
  trimLimit : Nat := 500
  forceCeiling : Nat := 3000
  spinUpTimeout : Nat := 2500
  plungeTimeout : Nat := 5000
  retractTimeout : Nat := 2500
  retractRate : Nat := 50
  deriving DecidableEq, Repr

/-- One Open Joint List entry as a beacon carries it (R4, R141). -/
structure JointReport where
  id : Nat
  state : OpenJointState
  age : Nat
  deriving DecidableEq, Repr

/-- What a Neighbour Table entry keeps of a beacon (R4). -/
structure BeaconContent where
  position : Option Nat
  direction : Direction
  speed : Nat
  openList : List JointReport
  closedList : List Nat
  deriving DecidableEq, Repr

/-- One Neighbour Table entry (R4). -/
structure NeighbourEntry where
  rank : Rank
  liveness : Liveness := .absent
  age : Nat := 0
  content : Option BeaconContent := none
  deriving DecidableEq, Repr

/-- The Neighbour Table and the population view (R2, R4). Bit n of the view is set for rank n. -/
structure NeighbourTable where
  view : BitVec 8
  entries : List NeighbourEntry
  deriving DecidableEq, Repr

/-- One region window (R46, R55). -/
structure RegionWindow where
  enable : Bool := false
  base : Nat := 0
  length : Nat := 1
  kind : RegionKind := .solid
  derate : Nat := 16
  offset : Int := 0
  deriving DecidableEq, Repr

/-- What the Pass Executor gives the Travel Governor at record start (R22). -/
structure MotionTarget where
  kind : TravelKind
  endPos : Nat
  rate : Nat
  deriving DecidableEq, Repr

/-- The Travel Governor (R20, R45). -/
structure TravelGovernor where
  p : Option Nat := none
  v : Nat := 0
  dir : Direction := .up
  target : Option MotionTarget := none
  phaseOpen : Bool := false
  fence : Option Nat := none
  stallCount : Nat := 0
  stirCount : Nat := 0
  lastEnd : Option Nat := none
  followReported : Bool := false
  deriving DecidableEq, Repr

/-- A pass record's fields as they stand in its eight words (12.7). `rate` is also the pause length of a PAUSE and the
branch target of a BRANCH. -/
structure PassRecord where
  kindCode : Nat
  chain : Bool
  cont : Bool
  tolerate : Bool
  notify : Bool
  leadId : Nat
  trailId : Nat
  plungeRate : Nat
  rate : Nat
  coolDwell : Nat
  plungeDepth : Nat
  rpm : Nat
  plungeDwell : Nat
  setpoint : Nat
  start : Nat
  endPos : Nat
  release : Nat
  entryX : Nat
  standoff : Nat
  deriving DecidableEq, Repr

/-- A decided end: an end kind with its detail (R72, R83). -/
structure Decision where
  kind : EndKind
  detail : Option Detail
  deriving DecidableEq, Repr

/-- The completion record (R91, R98). -/
structure Completion where
  index : Nat := 0
  kind : Option EndKind := none
  detail : Option Detail := none
  secondary : Option Detail := none
  position : Nat := 0
  remaining : Nat := 0
  deriving DecidableEq, Repr

/-- The Pass Executor (R71, R72, R98). `record` is the record in hand, `passed` whether it passed its fetch checks
(R91), `leadPartner` and `trailPartner` the ranks its fetch found (R78, R125, R131). -/
structure PassExecutor where
  state : ExecutorState := .idle
  index : Nat := 0
  role : Role := .fresh
  decided : Option Decision := none
  secondary : Option Detail := none
  firstRecord : Bool := false
  pauseCount : Nat := 0
  overrideInForce : Nat := 100
  pendingOverride : Option Nat := none
  completion : Completion := {}
  completionPending : Bool := false
  record : Option PassRecord := none
  passed : Bool := false
  leadPartner : Option Rank := none
  trailPartner : Option Rank := none
  deriving DecidableEq, Repr

/-- The weld parameters (R99, R101). -/
structure WeldParams where
  rpm : Nat
  depth : Nat
  plungeRate : Nat
  dwell : Nat
  setpoint : Nat
  cont : Bool
  deriving DecidableEq, Repr

/-- The Head Sequencer (R99, R123). The Z command at power-up is a named choice (log 7). -/
structure HeadSequencer where
  state : HeadState := .parked
  phase : Nat := 0
  zCommand : Nat := 0
  spindle : Nat := 0
  trim : Int := 0
  force : Nat := 0
  forceAge : Nat := 65535
  weld : Option WeldParams := none
  retractPending : Bool := false
  deriving DecidableEq, Repr

/-- An Open Joint List entry (R124). -/
structure OpenJoint where
  id : Nat
  partner : Rank
  state : OpenJointState
  age : Nat
  release : Nat
  deriving DecidableEq, Repr

/-- The awaited joint (R124). -/
structure AwaitedJoint where
  id : Nat
  partner : Rank
  entryX : Nat
  hold : Nat
  coolDwell : Nat
  state : AwaitedState
  remaining : Nat
  deriving DecidableEq, Repr

/-- The Joint Unit (R124, R140). -/
structure JointUnit where
  openList : List OpenJoint := []
  currentLead : Option Nat := none
  awaited : Option AwaitedJoint := none
  closedList : List Nat := []
  deriving DecidableEq, Repr

/-- The fields of a feedback message (R174). -/
structure Feedback where
  position : Nat
  z : Nat
  atSpeed : Bool
  zClear : Bool
  force : Nat
  forceValid : Bool
  faultCode : Nat
  deriving DecidableEq, Repr

/-- The held feedback values (R174, R175). The position is none until an in-range one has been taken; the fault code is
not kept (R177). -/
structure HeldFeedback where
  position : Option Nat
  z : Nat
  atSpeed : Bool
  zClear : Bool
  force : Nat
  forceValid : Bool
  deriving DecidableEq, Repr

/-- The fields of a demand message (R172). -/
structure DemandMessage where
  position : Nat
  zCommand : Nat
  spindle : Nat
  enable : Bool
  deriving DecidableEq, Repr

/-- The Drive Port (R181). `demand` and `demandBytes` are the message last sent (outputs, log 14). -/
structure DrivePort where
  enable : Bool := false
  held : Option HeldFeedback := none
  slot : Option Feedback := none
  age : Nat := 65535
  lostReported : Bool := false
  driveReported : Bool := false
  estop : Bool := false
  clamp : Bool := false
  demand : Option DemandMessage := none
  demandBytes : List Byte := []
  deriving DecidableEq, Repr

/-- The Status Unit (R158, R182, R183, R189). -/
structure StatusUnit where
  station : StationState := .unconfigured
  resetCause : ResetCause := .powerUp
  lineResetPending : Bool := false
  flags : BitVec 14 := 0
  notifyIndex : Option Nat := none
  deriving DecidableEq, Repr

/-- An own beacon as assembled (R152). -/
structure OwnBeacon where
  station : StationState
  executor : ExecutorState
  head : HeadState
  position : Option Nat
  direction : Direction
  summary : Bool
  completionPending : Bool
  speed : Nat
  index : Nat
  openList : List JointReport
  closedList : List Nat
  deriving DecidableEq, Repr

/-- A reply as queued: LOAD REPLY or STATUS REPLY, the address it goes to and its payload (R150, 12.5). -/
inductive Reply where
  | load (dest : Nat) (payload : List Byte)
  | status (dest : Nat) (payload : List Byte)
  deriving DecidableEq, Repr

/-- A frame the station sends (R143). -/
inductive OwnFrame where
  | beacon (b : OwnBeacon)
  | reply (r : Reply)
  deriving DecidableEq, Repr

/-- The receive side of the line: nothing under way, a reception under way, or a frame that was under way at power-up
and is not received (R146, R157). -/
inductive Reception where
  | none | underWay | notTaken
  deriving DecidableEq, Repr

/-- The Peer Line Interface (R149 to R157). The transmit queue in its order of class is the pending beacon, if any, and
then the replies; the frame in transmission keeps its slot. `changeNoted` and `lineBytes` are the model's own. -/
structure PeerLine where
  beacon : Option OwnBeacon := none
  replies : List Reply := []
  transmitting : Option OwnFrame := none
  reception : Reception := .none
  periodCount : Nat := 0
  periodOverrun : Bool := false
  holdOff : Bool := false
  changeWaiting : Bool := false
  changeNoted : Bool := false
  lineBytes : List Byte := []
  deriving DecidableEq, Repr

/-- The seven entries of a station of rank `own`, in rank order, as reset leaves them (R19). -/
def freshEntries (own : Rank) : List NeighbourEntry :=
  ([0, 1, 2, 3, 4, 5, 6, 7].filter (fun r => r ≠ own)).map (fun r => { rank := r })

/-- The population view that holds the own rank alone (R2). -/
def ownView (own : Rank) : BitVec 8 := 1#8 <<< own.val

/-- One station. -/
structure State where
  ownRank : Rank := 0
  clock : BitVec 32 := 0
  constants : Constants := {}
  nt : NeighbourTable := { view := ownView 0, entries := freshEntries 0 }
  rm : List RegionWindow := List.replicate 8 {}
  tg : TravelGovernor := {}
  pm : List Host.Cell := []
  px : PassExecutor := {}
  hs : HeadSequencer := {}
  ju : JointUnit := {}
  dp : DrivePort := {}
  su : StatusUnit := {}
  pli : PeerLine := {}
  freeCount : Nat := 0
  pending : List Instr := []
  deriving DecidableEq, Repr

/-- Why the machine would stop with a fault. The spec gives every command an effect in every state, so no meaning
raises a fault, and there is no constructor. Safe: a machine that never stops promises no more than the spec. -/
inductive Fault where
  deriving DecidableEq, Repr

/-- Why a command would be refused. -/
inductive Refusal where
  /-- Raised by exec's arm of a command that has no meaning yet; no arm raises it. Safe: the machine stops. -/
  | notModelled (mnemonic : String)
  deriving DecidableEq, Repr

/-- The station right after power-up with strap pins 000, the emergency-stop line released and the clamp-made line
false (R159; the pins and levels are a DESIGN CHOICE, log 6). -/
def State.reset : State := {}

end Sys2Proof.Machine
end

