-- ==== Sys2Proof/Machine/Operands.lean ====
section
/-! DEFINITION. The layouts of chapter 12: byte order, the check sequence, frames, records and drive link messages,
read and written. Fields are plain numbers: a field outside its range is carried as it is and judged by its owner (R190). -/

namespace Sys2Proof.Machine

/-! ### Byte order (R190) -/

/-- A multi-byte field, most significant byte first. -/
def natOfBytes (bs : List Byte) : Nat :=
  bs.foldl (fun acc b => 256 * acc + b.toNat) 0

/-- `n` as `k` bytes, most significant byte first. -/
def bytesOfNat : Nat → Nat → List Byte
  | 0, _ => []
  | k + 1, n => bytesOfNat k (n / 256) ++ [BitVec.ofNat 8 n]

/-- The field of `len` bytes at `off`; 0 where the bytes are too few to carry it (12.5). -/
def fieldAt (bs : List Byte) (off len : Nat) : Nat :=
  if off + len ≤ bs.length then natOfBytes ((bs.drop off).take len) else 0

/-- The `w` bits of `n` whose lowest is bit `lo`. -/
def bitsOf (n lo w : Nat) : Nat :=
  n / 2 ^ lo % 2 ^ w

/-- Bit `k` of `n`. -/
def bitOf (n k : Nat) : Bool :=
  bitsOf n k 1 = 1

/-- A Bool as the number its bit has. -/
def bitNat (b : Bool) : Nat :=
  if b then 1 else 0

/-- A 16-bit two's complement field as an integer (R190). -/
def signed16 (n : Nat) : Int :=
  if n < 32768 then n else (n : Int) - 65536

/-- An integer as a 16-bit two's complement field (R190). -/
def unsigned16 (i : Int) : Nat :=
  (i % 65536).toNat

/-! ### The check sequence (R190) -/

/-- `f n`, with `n` evaluated first: a device for the kernel's evaluation, equal to `f n`. -/
def forced {α : Type} (n : Nat) (f : Nat → α) : α :=
  match n with
  | 0 => f 0
  | k + 1 => f (k + 1)

/-- `k` shifts of the check register by the generator x¹⁶ + x¹² + x⁵ + 1. -/
def crcBits : Nat → Nat → Nat
  | 0, r => r
  | k + 1, r => forced (if r < 32768 then 2 * r else Nat.xor (2 * r) 0x11021) (crcBits k)

/-- The register after the bytes `bs`, each fed most significant bit first. -/
def crcBytes : List Byte → Nat → Nat
  | [], r => r
  | b :: bs, r => forced (crcBits 8 (Nat.xor r (256 * b.toNat))) (crcBytes bs)

/-- The check over `bs`: register preset to all ones, no final inversion. -/
def checkOf (bs : List Byte) : Nat :=
  crcBytes bs 0xFFFF

/-- `bs` followed by its check sequence, most significant byte first. -/
def withCheck (bs : List Byte) : List Byte :=
  bs ++ bytesOfNat 2 (checkOf bs)

/-! ### Codes (12.2, 12.6) -/

/-- The frame kinds (R143). -/
inductive FrameKind where
  | halt | lineReset | setup | jobStart | jobClear | override | beacon | passLoad | regionLoad | statusRequest
  | loadReply | statusReply
  deriving DecidableEq, Repr

/-- 12.2. -/
def FrameKind.code : FrameKind → Nat
  | .halt => 1
  | .lineReset => 2
  | .setup => 3
  | .jobStart => 4
  | .jobClear => 5
  | .override => 6
  | .beacon => 16
  | .passLoad => 32
  | .regionLoad => 33
  | .statusRequest => 34
  | .loadReply => 48
  | .statusReply => 49

/-- The kind a code names; none where it names no kind (12.2). -/
def FrameKind.ofCode (c : Nat) : Option FrameKind :=
  [FrameKind.halt, .lineReset, .setup, .jobStart, .jobClear, .override, .beacon, .passLoad, .regionLoad,
    .statusRequest, .loadReply, .statusReply].find? (fun k => k.code = c)

/-- The class of each kind (R143). -/
def FrameKind.cls : FrameKind → Nat
  | .halt => 0
  | .lineReset => 1
  | .setup => 1
  | .jobStart => 1
  | .jobClear => 1
  | .beacon => 2
  | .override => 3
  | .passLoad => 3
  | .regionLoad => 3
  | .statusRequest => 3
  | .loadReply => 3
  | .statusReply => 3

def StationState.code : StationState → Nat
  | .unconfigured => 0
  | .idle => 1
  | .running => 2
  | .stopped => 3

def ExecutorState.code : ExecutorState → Nat
  | .idle => 0
  | .fetching => 1
  | .waitSlot => 2
  | .active => 3
  | .awaitHeadEnd => 4
  | .halting => 5
  | .stopped => 6

def HeadState.code : HeadState → Nat
  | .parked => 0
  | .spinningUp => 1
  | .plunging => 2
  | .dwelling => 3
  | .stirring => 4
  | .retracting => 5
  | .halted => 6

def Liveness.code : Liveness → Nat
  | .absent => 0
  | .live => 1
  | .silent => 2

def OpenJointState.code : OpenJointState → Nat
  | .pending => 0
  | .ready => 1
  | .void => 2

def OpenJointState.ofCode : Nat → Option OpenJointState
  | 0 => some .pending
  | 1 => some .ready
  | 2 => some .void
  | _ => none

def AwaitedState.code : AwaitedState → Nat
  | .waiting => 0
  | .cooling => 1
  | .clear => 2
  | .void => 3

def ResetCause.code : ResetCause → Nat
  | .powerUp => 0
  | .lineReset => 1

def Direction.code : Direction → Nat
  | .up => 0
  | .down => 1

def RegionKind.code : RegionKind → Nat
  | .solid => 0
  | .edge => 1
  | .opening => 2

def RegionKind.ofCode : Nat → Option RegionKind
  | 0 => some .solid
  | 1 => some .edge
  | 2 => some .opening
  | _ => none

def EndKind.code : EndKind → Nat
  | .complete => 1
  | .short => 2
  | .voidAlt => 3
  | .programCheck => 4
  | .fault => 5
  | .halted => 6
  | .estop => 7
  | .rankConflict => 8

def Detail.code : Detail → Nat
  | .stall => 1
  | .holdExpired => 2
  | .invalidKind => 16
  | .indexRange => 17
  | .branchToBranch => 18
  | .branchFirst => 19
  | .startMismatch => 20
  | .zeroLength => 21
  | .direction => 22
  | .fieldRange => 23
  | .railRange => 24
  | .pathOpen => 25
  | .continueKind => 26
  | .jointPartner => 27
  | .jointGeometry => 28
  | .jointDuplicate => 29
  | .jointReused => 30
  | .clampOpen => 32
  | .spinTimeout => 33
  | .plungeTimeout => 34
  | .overload => 35
  | .clampLost => 36
  | .forceLost => 37
  | .retractTimeout => 38
  | .following => 39
  | .feedbackLost => 40
  | .driveReported => 41
  | .neighbourOrder => 48
  | .duplicateRank => 49
  | .estop => 56

/-- An optional code, 0 for none (12.6). -/
def codeOr0 {α : Type} (code : α → Nat) : Option α → Nat
  | none => 0
  | some a => code a

def RecordKind.code : RecordKind → Nat
  | .weld => 1
  | .dry => 2
  | .move => 3
  | .pause => 4
  | .branch => 5

/-- The kind a record's code names; none for INVALID and for a code that names no kind (R57, 12.7). -/
def RecordKind.ofCode : Nat → Option RecordKind
  | 1 => some .weld
  | 2 => some .dry
  | 3 => some .move
  | 4 => some .pause
  | 5 => some .branch
  | _ => none

/-! ### Frames (12.2, R146, R147) -/

/-- A complete frame whose check sequence holds. -/
structure ReceivedFrame where
  cls : Nat
  sender : Nat
  dest : Nat
  kindCode : Nat
  payload : List Byte
  deriving DecidableEq, Repr

/-- The frame the received bytes form, or none where R146 discards them: the line went idle before the frame was
complete, the length is above the longest payload, or the check sequence differs. -/
def parseFrame (bs : List Byte) : Option ReceivedFrame :=
  match bs with
  | arb :: dst :: kind :: len :: rest =>
    if Config.longestPayload < len.toNat then none
    else if rest.length ≠ len.toNat + 2 then none
    else if natOfBytes (rest.drop len.toNat) ≠ checkOf (arb :: dst :: kind :: len :: rest.take len.toNat) then none
    else some { cls := arb.toNat / 64, sender := arb.toNat % 64, dest := dst.toNat, kindCode := kind.toNat,
                payload := rest.take len.toNat }
  | _ => none

/-- The bytes of a frame as sent (R142, R190). -/
def frameBytes (cls sender dest kindCode : Nat) (payload : List Byte) : List Byte :=
  withCheck ([BitVec.ofNat 8 (64 * cls + sender), BitVec.ofNat 8 dest, BitVec.ofNat 8 kindCode,
    BitVec.ofNat 8 payload.length] ++ payload)

/-- A cell frame as a cell-side station sends it: the bytes of a frame of `kind`, at its class. -/
def cellFrame (kind : FrameKind) (sender dest : Nat) (payload : List Byte) : List Byte :=
  frameBytes kind.cls sender dest kind.code payload

/-- The fixed payload lengths that filter 8 of R147 holds frames to. -/
def FrameKind.fixedLength : FrameKind → Option Nat
  | .halt => some 0
  | .lineReset => some 0
  | .setup => some 38
  | .jobStart => some 17
  | .jobClear => some 0
  | .override => some 1
  | .statusRequest => some 2
  | _ => none

/-- A cell frame kind: one of the nine taken from senders 8 to 15 (R143). -/
def FrameKind.fromCell : FrameKind → Bool
  | .beacon => false
  | .loadReply => false
  | .statusReply => false
  | _ => true

/-- A request whose answer is a reply (R143). -/
def FrameKind.answered : FrameKind → Bool
  | .passLoad => true
  | .regionLoad => true
  | .statusRequest => true
  | _ => false

/-- The receive filters of R147, in its order: true where the first that applies discards the frame. `full` says that
the transmit queue holds three replies (R150). -/
def filtered (own : Rank) (full : Bool) (f : ReceivedFrame) : Bool :=
  if 15 < f.sender then true else
  match FrameKind.ofCode f.kindCode with
  | none => true
  | some k =>
    if k = .loadReply ∨ k = .statusReply then true
    else if k = .beacon ∧ 8 ≤ f.sender then true
    else if k.fromCell = true ∧ f.sender < 8 then true
    else if k ≠ .beacon ∧ f.dest ≠ own.val ∧ f.dest ≠ 255 then true
    else if k.answered = true ∧ f.dest = 255 then true
    else if k.fixedLength.any (fun n => f.payload.length ≠ n) = true then true
    else k.answered && full

/-! ### Pass records (12.7) -/

/-- The record in 32 bytes. Word w, bit b is bit 32 * (7 - w) + b of the whole, and the 128-bit string of words 4 to 7
counts from its most significant end. -/
def recordOfBytes (bs : List Byte) : PassRecord :=
  let n := natOfBytes bs
  { kindCode := bitsOf n 252 4
    chain := bitOf n 251
    cont := bitOf n 250
    tolerate := bitOf n 249
    notify := bitOf n 248
    leadId := bitsOf n 240 8
    trailId := bitsOf n 232 8
    plungeRate := bitsOf n 224 8
    rate := bitsOf n 208 16
    coolDwell := bitsOf n 192 16
    plungeDepth := bitsOf n 178 14
    rpm := bitsOf n 166 12
    plungeDwell := bitsOf n 148 12
    setpoint := bitsOf n 136 12
    start := bitsOf n 103 25
    endPos := bitsOf n 78 25
    release := bitsOf n 53 25
    entryX := bitsOf n 28 25
    standoff := bitsOf n 3 25 }

/-- A record's eight words as 32 bytes, unused bits 0 (12.7). -/
def recordBytes (r : PassRecord) : List Byte :=
  bytesOfNat 4 (r.kindCode * 2 ^ 28 + bitNat r.chain * 2 ^ 27 + bitNat r.cont * 2 ^ 26 + bitNat r.tolerate * 2 ^ 25
      + bitNat r.notify * 2 ^ 24 + r.leadId * 2 ^ 16 + r.trailId * 2 ^ 8 + r.plungeRate)
    ++ bytesOfNat 4 (r.rate * 2 ^ 16 + r.coolDwell)
    ++ bytesOfNat 4 (r.plungeDepth * 2 ^ 18 + r.rpm * 2 ^ 6)
    ++ bytesOfNat 4 (r.plungeDwell * 2 ^ 20 + r.setpoint * 2 ^ 8)
    ++ bytesOfNat 16 (r.start * 2 ^ 103 + r.endPos * 2 ^ 78 + r.release * 2 ^ 53 + r.entryX * 2 ^ 28 + r.standoff * 2 ^ 3)

/-- The kind the record's code names (R57). -/
def PassRecord.kind (r : PassRecord) : Option RecordKind :=
  RecordKind.ofCode r.kindCode

/-- CHAIN as the kind reads it (R63, R89). -/
def PassRecord.chains (r : PassRecord) : Bool :=
  r.chain && (r.kind == some .weld || r.kind == some .dry || r.kind == some .move || r.kind == some .pause)

/-- CONTINUE as the kind reads it (R63, R89). -/
def PassRecord.continues (r : PassRecord) : Bool :=
  r.cont && r.kind == some .weld

/-- TOLERATE_SHORT as the kind reads it (R63, R89). -/
def PassRecord.tolerates (r : PassRecord) : Bool :=
  r.tolerate && (r.kind == some .weld || r.kind == some .dry || r.kind == some .move)

/-- The kind of motion target a record gives, if it gives one (R22). -/
def PassRecord.travelKind (r : PassRecord) : Option TravelKind :=
  match r.kind with
  | some .weld => some .weld
  | some .dry => some .dry
  | some .move => some .move
  | _ => none

/-! ### Beacons (12.3) -/

/-- A beacon's payload as carried, before R5 judges it. -/
structure BeaconFields where
  station : Nat
  executor : Nat
  head : Nat
  bits : Nat
  position : Nat
  speed : Nat
  index : Nat
  openCount : Nat
  closedCount : Nat
  openList : List (Nat × Nat × Nat)
  closedList : List Nat
  length : Nat
  deriving DecidableEq, Repr

/-- The joint entries in `bs`: id, state code and ready age, four bytes each. -/
def openFields : Nat → List Byte → List (Nat × Nat × Nat)
  | 0, _ => []
  | k + 1, bs => (fieldAt bs 0 1, fieldAt bs 1 1, fieldAt bs 2 2) :: openFields k (bs.drop 4)

/-- 12.3. -/
def beaconFields (bs : List Byte) : BeaconFields :=
  let nOpen := fieldAt bs 16 1
  let nClosed := fieldAt bs 17 1
  { station := fieldAt bs 0 2, executor := fieldAt bs 2 2, head := fieldAt bs 4 2, bits := fieldAt bs 6 2
    position := fieldAt bs 8 4, speed := fieldAt bs 12 2, index := fieldAt bs 14 2
    openCount := nOpen, closedCount := nClosed
    openList := openFields nOpen (bs.drop 18)
    closedList := ((bs.drop (18 + 4 * nOpen)).take nClosed).map (fun b => b.toNat)
    length := bs.length }

/-- R5: the content is well formed. -/
def BeaconFields.wellFormed (b : BeaconFields) : Bool :=
  decide (18 ≤ b.length) && decide (b.length = 18 + 4 * b.openCount + b.closedCount)
    && decide (b.station ≤ 3) && decide (b.executor ≤ 6) && decide (b.head ≤ 6)
    && (!bitOf b.bits 0 || decide (b.position ≤ Config.railTop))
    && decide (b.speed ≤ Config.speedTop) && decide (b.index < Config.recordCount)
    && decide (b.openCount ≤ Config.jointCapacity) && decide (b.closedCount ≤ Config.jointCapacity)
    && b.openList.all (fun e => decide (e.1 ≠ 0) && decide (e.2.1 ≤ 2))
    && b.closedList.all (fun i => decide (i ≠ 0))
    && decide ((b.openList.map (fun e => e.1)).Nodup) && decide b.closedList.Nodup

/-- What the Neighbour Table keeps of a well-formed beacon (R4). -/
def BeaconFields.content (b : BeaconFields) : BeaconContent :=
  { position := if bitOf b.bits 0 then some b.position else none
    direction := if bitOf b.bits 1 then .down else .up
    speed := b.speed
    openList := b.openList.filterMap (fun e => (OpenJointState.ofCode e.2.1).map (fun st => ⟨e.1, st, e.2.2⟩))
    closedList := b.closedList }

/-- An own beacon's payload (12.3). -/
def OwnBeacon.payload (b : OwnBeacon) : List Byte :=
  bytesOfNat 2 b.station.code ++ bytesOfNat 2 b.executor.code ++ bytesOfNat 2 b.head.code
    ++ bytesOfNat 2 (bitNat b.position.isSome + 2 * b.direction.code + 4 * bitNat b.summary + 8 * bitNat b.completionPending)
    ++ bytesOfNat 4 (b.position.getD 0) ++ bytesOfNat 2 b.speed ++ bytesOfNat 2 b.index
    ++ bytesOfNat 1 b.openList.length ++ bytesOfNat 1 b.closedList.length
    ++ (b.openList.map (fun e => bytesOfNat 1 e.id ++ bytesOfNat 1 e.state.code ++ bytesOfNat 2 e.age)).flatten
    ++ (b.closedList.map (fun i => bytesOfNat 1 i)).flatten

/-- The arbitration field of an own frame of a station of rank `own`: class, then sender address (R142, 12.2). -/
def OwnFrame.arbitration (own : Rank) : OwnFrame → Nat
  | .beacon _ => 64 * FrameKind.beacon.cls + own.val
  | .reply _ => 64 * FrameKind.statusReply.cls + own.val

/-- The bytes of an own frame: a beacon to 255, a reply to the sender of its request (R142, R150). -/
def OwnFrame.bytes (own : Rank) : OwnFrame → List Byte
  | .beacon b => frameBytes FrameKind.beacon.cls own.val 255 FrameKind.beacon.code b.payload
  | .reply (.load d pl) => frameBytes FrameKind.loadReply.cls own.val d FrameKind.loadReply.code pl
  | .reply (.status d pl) => frameBytes FrameKind.statusReply.cls own.val d FrameKind.statusReply.code pl

/-! ### Cell frames (12.4) -/

/-- A SETUP frame's population mask, as carried. -/
def setupMask (bs : List Byte) : BitVec 8 :=
  BitVec.ofNat 8 (fieldAt bs 0 1)

/-- A SETUP frame's constants, as carried (12.4). -/
def setupConstants (bs : List Byte) : Constants :=
  { spacing := fieldAt bs 1 4, accel := fieldAt bs 5 1, decel := fieldAt bs 6 1, beaconPeriod := fieldAt bs 7 1
    staleLimit := fieldAt bs 8 2, railMin := fieldAt bs 10 4, railMax := fieldAt bs 14 4, stirLimit := fieldAt bs 18 2
    stallLimit := fieldAt bs 20 2, followLimit := fieldAt bs 22 2, forceGain := fieldAt bs 24 1
    maxTrimStep := fieldAt bs 25 1, trimLimit := fieldAt bs 26 2, forceCeiling := fieldAt bs 28 2
    spinUpTimeout := fieldAt bs 30 2, plungeTimeout := fieldAt bs 32 2, retractTimeout := fieldAt bs 34 2
    retractRate := fieldAt bs 36 2 }

/-- A SETUP payload (12.4). -/
def setupPayload (mask : BitVec 8) (c : Constants) : List Byte :=
  [mask] ++ bytesOfNat 4 c.spacing ++ bytesOfNat 1 c.accel ++ bytesOfNat 1 c.decel ++ bytesOfNat 1 c.beaconPeriod
    ++ bytesOfNat 2 c.staleLimit ++ bytesOfNat 4 c.railMin ++ bytesOfNat 4 c.railMax ++ bytesOfNat 2 c.stirLimit
    ++ bytesOfNat 2 c.stallLimit ++ bytesOfNat 2 c.followLimit ++ bytesOfNat 1 c.forceGain ++ bytesOfNat 1 c.maxTrimStep
    ++ bytesOfNat 2 c.trimLimit ++ bytesOfNat 2 c.forceCeiling ++ bytesOfNat 2 c.spinUpTimeout
    ++ bytesOfNat 2 c.plungeTimeout ++ bytesOfNat 2 c.retractTimeout ++ bytesOfNat 2 c.retractRate

/-- The start index a JOB START payload names for rank `own`; none where its mask does not name it (R73, 12.4). -/
def jobStartIndex (own : Rank) (bs : List Byte) : Option Nat :=
  if bitOf (fieldAt bs 0 1) own.val then some (fieldAt bs (1 + 2 * own.val) 2) else none

/-- The status sections (12.4). -/
inductive Section where
  | station | completion | attention | joints
  deriving DecidableEq, Repr

/-- The section a STATUS REQUEST names; none for no known section (R184, 12.4). -/
def Section.ofCode : Nat → Option Section
  | 1 => some .station
  | 2 => some .completion
  | 3 => some .attention
  | 4 => some .joints
  | _ => none

/-- Results of LOAD REPLY and STATUS REPLY (12.5). -/
inductive Result where
  | accepted | busy | format | range
  deriving DecidableEq, Repr

def Result.code : Result → Nat
  | .accepted => 0
  | .busy => 1
  | .format => 2
  | .range => 3

/-- A LOAD REPLY payload: the kind answered, the result, the index and the count as the request carried them (12.5). -/
def loadReplyPayload (kind : FrameKind) (r : Result) (index count : Nat) : List Byte :=
  bytesOfNat 1 kind.code ++ bytesOfNat 1 r.code ++ bytesOfNat 2 index ++ bytesOfNat 1 count

/-- The window a REGION LOAD payload carries, its kind given (12.4). -/
def windowOfPayload (bs : List Byte) (kind : RegionKind) : RegionWindow :=
  { enable := bitOf (fieldAt bs 1 1) 0, base := fieldAt bs 2 4, length := fieldAt bs 6 4, kind := kind
    derate := fieldAt bs 11 1, offset := signed16 (fieldAt bs 12 2) }

/-- A REGION LOAD payload (12.4). -/
def regionPayload (index : Nat) (w : RegionWindow) : List Byte :=
  bytesOfNat 1 index ++ bytesOfNat 1 (bitNat w.enable) ++ bytesOfNat 4 w.base ++ bytesOfNat 4 w.length
    ++ bytesOfNat 1 w.kind.code ++ bytesOfNat 1 w.derate ++ bytesOfNat 2 (unsigned16 w.offset)

/-! ### Drive link messages (12.8) -/

/-- The feedback message in the bytes received: none where the link check fails (R174). Nor is there one in bytes that are not
the twelve of 12.8, whatever their last two (the model's choice, log 41). -/
def parseFeedback (bs : List Byte) : Option Feedback :=
  if bs.length = 12 ∧ natOfBytes (bs.drop 10) = checkOf (bs.take 10) then
    some { position := fieldAt bs 0 4, z := fieldAt bs 4 2, atSpeed := bitOf (fieldAt bs 6 1) 0
           zClear := bitOf (fieldAt bs 6 1) 1, force := bitsOf (fieldAt bs 7 2) 0 12
           forceValid := bitOf (fieldAt bs 6 1) 2, faultCode := fieldAt bs 9 1 }
  else none

/-- A feedback message as the drives send it (12.8). -/
def feedbackBytes (m : Feedback) : List Byte :=
  withCheck (bytesOfNat 4 m.position ++ bytesOfNat 2 m.z
    ++ bytesOfNat 1 (bitNat m.atSpeed + 2 * bitNat m.zClear + 4 * bitNat m.forceValid)
    ++ bytesOfNat 2 m.force ++ bytesOfNat 1 m.faultCode)

/-- A demand message as the part sends it (12.8). -/
def DemandMessage.bytes (m : DemandMessage) : List Byte :=
  withCheck (bytesOfNat 4 m.position ++ bytesOfNat 2 m.zCommand ++ bytesOfNat 2 m.spindle ++ bytesOfNat 1 (bitNat m.enable))

end Sys2Proof.Machine
end

