-- ==== Sys2Proof/Machine/Ops.lean ====
section
/-! DEFINITION. The named operations: one update per block, Pass Memory's reads and writes, saturating counts and
clamps, the setters that note a reported change (R154), and the own beacon's assembly and scheduling (R151 to R154). -/

namespace Sys2Proof.Machine

/-! ### One update per block -/

def State.withNt (s : State) (x : NeighbourTable) : State := { s with nt := x }
def State.withTg (s : State) (x : TravelGovernor) : State := { s with tg := x }
def State.withPx (s : State) (x : PassExecutor) : State := { s with px := x }
def State.withHs (s : State) (x : HeadSequencer) : State := { s with hs := x }
def State.withJu (s : State) (x : JointUnit) : State := { s with ju := x }
def State.withDp (s : State) (x : DrivePort) : State := { s with dp := x }
def State.withSu (s : State) (x : StatusUnit) : State := { s with su := x }
def State.withPli (s : State) (x : PeerLine) : State := { s with pli := x }
def State.withRm (s : State) (x : List RegionWindow) : State := { s with rm := x }
def State.withPm (s : State) (x : List Host.Cell) : State := { s with pm := x }
def State.withConstants (s : State) (x : Constants) : State := { s with constants := x }
def State.withFree (s : State) (x : Nat) : State := { s with freeCount := x }

/-! ### Counts and clamps (00_scope, Arithmetic) -/

/-- A count that increases by 1 and stops at 65,535. -/
def countUp (n : Nat) : Nat :=
  min (n + 1) Config.countTop

/-- `x` brought to the nearest limit of `lo` to `hi`. -/
def clampNat (lo hi x : Nat) : Nat :=
  max lo (min hi x)

/-- `x` brought to the nearest limit of `lo` to `hi`. -/
def clampInt (lo hi x : Int) : Int :=
  max lo (min hi x)

/-- The distance |a − b|. -/
def distance (a b : Nat) : Nat :=
  (a - b) + (b - a)

/-! ### Pass Memory (R56, R70): byte 32 * i + k is byte k of record i -/

/-- What an unlisted address reads as: power-up leaves every word 0 (R70). -/
def unlistedByte : Byte := 0

/-- The byte at `a`. -/
def readByte : List Host.Cell → Nat → Byte
  | [], _ => unlistedByte
  | (k, v) :: t, a => if k = a then v else readByte t a

/-- The cells with the byte at `a` replaced, in canonical form. -/
def writeByte : List Host.Cell → Nat → Byte → List Host.Cell
  | [], a, b => if b = unlistedByte then [] else [(a, b)]
  | (k, v) :: t, a, b =>
    if a < k then (if b = unlistedByte then (k, v) :: t else (a, b) :: (k, v) :: t)
    else if a = k then (if b = unlistedByte then t else (a, b) :: t)
    else (k, v) :: writeByte t a b

/-- The bytes from `a` on replaced by `bs`. -/
def writeBytes : List Host.Cell → Nat → List Byte → List Host.Cell
  | m, _, [] => m
  | m, a, b :: bs => writeBytes (writeByte m a b) (a + 1) bs

/-- The `n` bytes from `a` on. -/
def readBytes (m : List Host.Cell) (a : Nat) : Nat → List Byte
  | 0 => []
  | n + 1 => readByte m a :: readBytes m (a + 1) n

/-- The canonical form above a bound: addresses strictly rising, no listed byte equal to an unlisted one. -/
def cellsAbove : Nat → List Host.Cell → Bool
  | _, [] => true
  | lo, (k, v) :: t => decide (lo ≤ k) && decide (v ≠ unlistedByte) && cellsAbove (k + 1) t

/-- The canonical form of Pass Memory. -/
def Memory.wf (m : List Host.Cell) : Bool :=
  cellsAbove 0 m

/-- The record at index `i`, read whole (R75). -/
def readRecord (m : List Host.Cell) (i : Nat) : PassRecord :=
  recordOfBytes (readBytes m (Config.recordBytes * i) Config.recordBytes)

/-! ### Noting a reported change (R154, log 10) -/

/-- A change of R154 has come about in this event. -/
def noteChange (s : State) : State :=
  s.withPli { s.pli with changeNoted := true }

/-- The station state becomes `x` (R158). -/
def setStation (x : StationState) (s : State) : State :=
  if s.su.station = x then s else noteChange (s.withSu { s.su with station := x })

/-- The executor state becomes `x` (R97). -/
def setExecutor (x : ExecutorState) (s : State) : State :=
  if s.px.state = x then s else noteChange (s.withPx { s.px with state := x })

/-- The head state becomes `x` (R122). -/
def setHead (x : HeadState) (s : State) : State :=
  if s.hs.state = x then s else noteChange (s.withHs { s.hs with state := x })

/-- The active record index becomes `i` (R97). -/
def setIndex (i : Nat) (s : State) : State :=
  if s.px.index = i then s else noteChange (s.withPx { s.px with index := i })

/-- Completion pending is set or cleared (R188). -/
def setCompletionPending (b : Bool) (s : State) : State :=
  if s.px.completionPending = b then s else noteChange (s.withPx { s.px with completionPending := b })

/-- What of the Joint Unit is reported as a change: entries created, removed or changed in state, the Closed Joint List,
the awaited joint created, changed in state or removed (R141). -/
def JointUnit.reported (u : JointUnit) : List (Nat × OpenJointState) × List Nat × Option (Nat × AwaitedState) :=
  (u.openList.map (fun e => (e.id, e.state)), u.closedList, u.awaited.map (fun a => (a.id, a.state)))

/-- The Joint Unit becomes `x`. -/
def setJoints (x : JointUnit) (s : State) : State :=
  if x.reported = s.ju.reported then s.withJu x else noteChange (s.withJu x)

/-! ### The own beacon (R151 to R154) -/

/-- R152: assembled from the four blocks as they stand; R188: the summary is set while any flag is set. -/
def assembleBeacon (s : State) : OwnBeacon :=
  { station := s.su.station, executor := s.px.state, head := s.hs.state, position := s.tg.p, direction := s.tg.dir
    summary := decide (s.su.flags ≠ 0), completionPending := s.px.completionPending, speed := s.tg.v
    index := s.px.index, openList := s.ju.openList.map (fun e => ⟨e.id, e.state, e.age⟩), closedList := s.ju.closedList }

/-- The frame in transmission is an own beacon. -/
def sendingBeacon (s : State) : Bool :=
  match s.pli.transmitting with
  | some (.beacon _) => true
  | _ => false

/-- A beacon is due (R151): queued, or the pending one replaced in place; with the own beacon in transmission, change
waiting is set to yes. -/
def beaconDue (s : State) : State :=
  if sendingBeacon s then s.withPli { s.pli with changeWaiting := true }
  else s.withPli { s.pli with beacon := some (assembleBeacon s), changeWaiting := false }

/-- A reported change acts (R154). -/
def reportChange (s : State) : State :=
  if s.pli.beacon.isSome then beaconDue s
  else if sendingBeacon s || s.pli.holdOff then s.withPli { s.pli with changeWaiting := true }
  else beaconDue s

/-- The end of an event: the changes it made, if any, are reported as one (R154, log 10). -/
def settle (s : State) : State :=
  if s.pli.changeNoted then reportChange (s.withPli { s.pli with changeNoted := false }) else s

end Sys2Proof.Machine
end

