-- ==== Sys2Proof/Machine/Flags.lean ====
section
/-! DEFINITION. The attention flags (R182, R187, R188). -/

namespace Sys2Proof.Machine

/-- The bit of each flag (12.5). -/
def AttentionFlag.bit : AttentionFlag → Nat
  | .notify => 0
  | .programCheck => 1
  | .fault => 2
  | .neighbourSilent => 3
  | .rankConflict => 4
  | .duplicateRank => 5
  | .stranger => 6
  | .fenceIntrusion => 7
  | .forceSaturated => 8
  | .jointVoided => 9
  | .setupIgnored => 10
  | .paramClamped => 11
  | .startRefused => 12
  | .clearRefused => 13

/-- The flag is set. -/
def State.flag (s : State) (f : AttentionFlag) : Bool :=
  s.su.flags.getLsbD f.bit

/-- The flag is set by its cause; the summary going from clear to set is a reported change (R182, R188). -/
def raise (f : AttentionFlag) (s : State) : State :=
  if s.su.flags = 0 then noteChange (s.withSu { s.su with flags := 1#14 <<< f.bit })
  else s.withSu { s.su with flags := s.su.flags ||| (1#14 <<< f.bit) }

/-- The flag is set where `b` holds. -/
def raiseIf (b : Bool) (f : AttentionFlag) (s : State) : State :=
  if b then raise f s else s

/-- Every flag is cleared; the summary going from set to clear is a reported change (R187, R188). -/
def clearFlags (s : State) : State :=
  if s.su.flags = 0 then s else noteChange (s.withSu { s.su with flags := 0 })

end Sys2Proof.Machine
end

