-- ==== Sys2Proof/Machine/RegionMap.lean ====
section
/-! DEFINITION. The Region Map: decoding a position, the opening check, judging REGION LOAD (chapter 3). -/

namespace Sys2Proof.Machine

/-- A region descriptor (R47). -/
structure RegionDescriptor where
  window : Option Nat
  kind : RegionKind
  derate : Nat
  offset : Int
  deriving DecidableEq, Repr

/-- The descriptor of a position no enabled window covers (R47). -/
def defaultDescriptor : RegionDescriptor :=
  { window := none, kind := .solid, derate := 16, offset := 0 }

/-- The window is enabled and covers the position: base at most it, base plus length greater (R46, R47). -/
def RegionWindow.covers (w : RegionWindow) (x : Nat) : Bool :=
  w.enable && decide (w.base ≤ x) && decide (x < w.base + w.length)

/-- The descriptor of `x` among windows numbered from `i`. -/
def decodeFrom : Nat → List RegionWindow → Nat → RegionDescriptor
  | _, [], _ => defaultDescriptor
  | i, w :: ws, x =>
    if w.covers x then { window := some i, kind := w.kind, derate := w.derate, offset := w.offset }
    else decodeFrom (i + 1) ws x

/-- R47: the lowest-numbered enabled window that covers the position, or the default descriptor. -/
def decodeRegion (ws : List RegionWindow) (x : Nat) : RegionDescriptor :=
  decodeFrom 0 ws x

/-- The descriptor decoded at p; no block asks for one while p is unknown (R47, R48). -/
def descriptorAtP (s : State) : RegionDescriptor :=
  match s.tg.p with
  | none => defaultDescriptor
  | some p => decodeRegion s.rm p

/-- The positions at which the decoding can change: the first covered by a window and the first past it. -/
def regionEdges : List RegionWindow → List Nat
  | [] => []
  | w :: ws => w.base :: (w.base + w.length) :: regionEdges ws

/-- R51: some position of the closed span between `a` and `b` decodes to OPEN. Decoding is constant between edges, so the
lowest position of the span and the edges inside it are read (log 20). -/
def spanOpen (ws : List RegionWindow) (a b : Nat) : Bool :=
  (min a b :: (regionEdges ws).filter (fun x => decide (min a b ≤ x) && decide (x ≤ max a b))).any
    (fun x => (decodeRegion ws x).kind == .opening)

/-- R53: the result of a REGION LOAD, the first condition that applies. -/
def regionLoadResult (st : StationState) (bs : List Byte) : Result :=
  if st = .running then .busy
  else if 7 < fieldAt bs 0 1 ∨ (RegionKind.ofCode (fieldAt bs 10 1)).isNone ∨ bs.length ≠ 14 then .format
  else if Config.railTop < fieldAt bs 2 4 ∨ fieldAt bs 6 4 = 0 ∨ Config.railTop < fieldAt bs 6 4
      ∨ fieldAt bs 11 1 = 0 ∨ 16 < fieldAt bs 11 1
      ∨ signed16 (fieldAt bs 12 2) < -512 ∨ 511 < signed16 (fieldAt bs 12 2) then .range
  else .accepted

/-- The windows after a REGION LOAD: an accepted frame replaces every field of its window (R53). -/
def regionLoadWindows (st : StationState) (bs : List Byte) (ws : List RegionWindow) : List RegionWindow :=
  match regionLoadResult st bs, RegionKind.ofCode (fieldAt bs 10 1) with
  | .accepted, some k => ws.set (fieldAt bs 0 1) (windowOfPayload bs k)
  | _, _ => ws

end Sys2Proof.Machine
end

