-- ==== Sys2Proof/Machine/NeighbourTable.lean ====
section
/-! DEFINITION. The Neighbour Table: adjacency, filing, ageing, the views it gives, the rank conflict check (chapter 1). -/

namespace Sys2Proof.Machine

/-- The ranks in order. -/
def allRanks : List Rank := [0, 1, 2, 3, 4, 5, 6, 7]

/-- The rank is in the population view. -/
def inView (v : BitVec 8) (r : Rank) : Bool :=
  v.getLsbD r.val

/-- R3: the lowest rank in the view above `own`. -/
def upperNeighbour (own : Rank) (v : BitVec 8) : Option Rank :=
  allRanks.find? (fun r => decide (own < r) && inView v r)

/-- R3: the highest rank in the view below `own`. -/
def lowerNeighbour (own : Rank) (v : BitVec 8) : Option Rank :=
  allRanks.reverse.find? (fun r => decide (r < own) && inView v r)

/-- The adjacent rank ahead of travel in direction `d`. -/
def rankAhead (s : State) (d : Direction) : Option Rank :=
  match d with
  | .up => upperNeighbour s.ownRank s.nt.view
  | .down => lowerNeighbour s.ownRank s.nt.view

/-- The adjacent rank behind travel in direction `d`. -/
def rankBehind (s : State) (d : Direction) : Option Rank :=
  match d with
  | .up => lowerNeighbour s.ownRank s.nt.view
  | .down => upperNeighbour s.ownRank s.nt.view

/-- The rank is one of the station's adjacent neighbours. -/
def isAdjacent (s : State) (r : Rank) : Bool :=
  upperNeighbour s.ownRank s.nt.view == some r || lowerNeighbour s.ownRank s.nt.view == some r

/-- The entry of a rank. -/
def entryOf (t : NeighbourTable) (r : Rank) : Option NeighbourEntry :=
  t.entries.find? (fun e => e.rank == r)

/-- The joint lists last filed from a rank, whatever its liveness; an ABSENT entry holds none (R14). -/
def filedOpen (s : State) (r : Rank) : List JointReport :=
  match entryOf s.nt r with
  | some e => if e.liveness = .absent then [] else (e.content.map (fun c => c.openList)).getD []
  | none => []

/-- As `filedOpen`, for the Closed Joint List. -/
def filedClosed (s : State) (r : Rank) : List Nat :=
  match entryOf s.nt r with
  | some e => if e.liveness = .absent then [] else (e.content.map (fun c => c.closedList)).getD []
  | none => []

/-- A neighbour view (R13). -/
inductive NeighbourView where
  | none
  | silent
  | live (q : Nat) (dir : Direction) (speed : Nat) (age : Nat)
  deriving DecidableEq, Repr

/-- The view of one rank's entry: silent unless it is LIVE with a position (R13). -/
def viewOfEntry (e : Option NeighbourEntry) : NeighbourView :=
  match e with
  | some e =>
    match e.liveness, e.content with
    | .live, some c =>
      match c.position with
      | some q => .live q c.direction c.speed e.age
      | none => .silent
    | _, _ => .silent
  | none => .silent

/-- R13: what the table gives the Travel Governor for a direction. -/
def neighbourView (s : State) (d : Direction) : NeighbourView :=
  match rankAhead s d with
  | none => .none
  | some r => viewOfEntry (entryOf s.nt r)

/-- R9: one entry grows older by one; a LIVE entry older than the stale limit becomes SILENT. -/
def ageEntry (stale : Nat) (e : NeighbourEntry) : NeighbourEntry :=
  { e with
    age := countUp e.age
    liveness := if e.liveness = .live ∧ stale < countUp e.age then .silent else e.liveness }

/-- The entry goes from LIVE to SILENT when it ages now (R9). -/
def goesSilent (stale : Nat) (e : NeighbourEntry) : Bool :=
  e.liveness == .live && decide (stale < countUp e.age)

/-- R9, R10: every entry ages; an adjacent one going SILENT while RUNNING sets NEIGHBOUR_SILENT. -/
def ageTable (s : State) : State :=
  raiseIf (s.su.station == .running && s.nt.entries.any (fun e => goesSilent s.constants.staleLimit e && isAdjacent s e.rank))
    .neighbourSilent
    (s.withNt { s.nt with entries := s.nt.entries.map (ageEntry s.constants.staleLimit) })

/-- R12: an entry that is not ABSENT is classed afresh against the stale limit. -/
def reclassEntry (stale : Nat) (e : NeighbourEntry) : NeighbourEntry :=
  if e.liveness = .absent then e
  else { e with liveness := if stale < e.age then .silent else .live }

/-- R6: the sender's entry takes the new content, LIVE with age 0. -/
def fileEntry (r : Rank) (c : BeaconContent) (e : NeighbourEntry) : NeighbourEntry :=
  if e.rank = r then { e with liveness := .live, age := 0, content := some c } else e

/-- R6, R7: the beacon is filed, and a sender outside the view is added to it, setting STRANGER. -/
def fileBeacon (r : Rank) (c : BeaconContent) (s : State) : State :=
  raiseIf (!inView s.nt.view r) .stranger
    (s.withNt { view := s.nt.view ||| (1#8 <<< r.val), entries := s.nt.entries.map (fileEntry r c) })

/-- The position of the entry of an adjacent rank, where it is LIVE with one (R16). -/
def livePosition (s : State) (r : Option Rank) : Option Nat :=
  match r with
  | none => none
  | some r =>
    match viewOfEntry (entryOf s.nt r) with
    | .live q _ _ _ => some q
    | _ => none

/-- R16: p is known and an adjacent neighbour stands on the wrong side of it. -/
def rankConflict (s : State) : Bool :=
  match s.tg.p with
  | none => false
  | some p =>
    (livePosition s (lowerNeighbour s.ownRank s.nt.view)).any (fun q => decide (p ≤ q))
      || (livePosition s (upperNeighbour s.ownRank s.nt.view)).any (fun q => decide (q ≤ p))

end Sys2Proof.Machine
end

