-- ==== Sys2Proof/Machine/TravelGovernor.lean ====
section
/-! DEFINITION. The Travel Governor's computation: fence, permitted speed, target, ramp, advance, and which report it
makes (chapter 2). -/

namespace Sys2Proof.Machine

/-- The square root's bits from bit `k - 1` down, the higher bits in `r`. -/
def isqrtBits : Nat → Nat → Nat → Nat
  | 0, r, _ => r
  | k + 1, r, n => forced (if (r + 2 ^ k) * (r + 2 ^ k) ≤ n then r + 2 ^ k else r) (fun r => isqrtBits k r n)

/-- The greatest integer whose square does not exceed `n` (00_scope, Abbreviations). -/
def isqrt (n : Nat) : Nat :=
  isqrtBits (n.log2 / 2 + 1) 0 n

/-- R30: floor((isqrt(D² + 8 × D × d) − D) / 2). -/
def permittedSpeed (decel d : Nat) : Nat :=
  (isqrt (decel * decel + 8 * decel * d) - decel) / 2

/-- R26: v_t × n + A × n × (n + 1) / 2. -/
def driftBound (accel vToward age : Nat) : Nat :=
  vToward * age + accel * age * (age + 1) / 2

/-- R26: the reported speed where the reported direction points toward a carriage travelling in direction `d`. -/
def speedToward (d reported : Direction) (speed : Nat) : Nat :=
  if reported ≠ d then speed else 0

/-- A candidate at `x` for a carriage at `p`: one behind it is taken as p (R28). -/
def notBehind (d : Direction) (p x : Nat) : Nat :=
  match d with
  | .up => max p x
  | .down => min p x

/-- R25, R26: the neighbour candidate. -/
def neighbourCandidate (c : Constants) (d : Direction) (p : Nat) : NeighbourView → Option Nat
  | .none => none
  | .silent => some p
  | .live q dir speed age =>
    let drift := driftBound c.accel (speedToward d dir speed) age
    match d with
    | .up => some (max p (q - (c.spacing + drift)))
    | .down => some (min p (q + c.spacing + drift))

/-- R28: the rail limit in the direction of travel. -/
def railLimit (c : Constants) : Direction → Nat
  | .up => c.railMax
  | .down => c.railMin

/-- R28, R134: the hold point while an awaited joint exists and is not CLEAR. -/
def holdCandidate (u : JointUnit) : Option Nat :=
  match u.awaited with
  | some a => if a.state = .clear then none else some a.hold
  | none => none

/-- R29: the nearer of a fence and a further candidate. -/
def nearer (d : Direction) (p fence : Nat) : Option Nat → Nat
  | none => fence
  | some x =>
    match d with
    | .up => min fence (notBehind d p x)
    | .down => max fence (notBehind d p x)

/-- R25 to R29: the fence of a computation from `p`. -/
def fenceAt (s : State) (p : Nat) : Nat :=
  let d := s.tg.dir
  let f := notBehind d p (railLimit s.constants d)
  let f := nearer d p f (neighbourCandidate s.constants d p (neighbourView s d))
  let f := nearer d p f s.tg.lastEnd
  nearer d p f (holdCandidate s.ju)

/-- R31: the target speed while the travel phase is open. -/
def recordSpeed (t : MotionTarget) (derate override : Nat) : Nat :=
  min Config.speedTop
    (match t.kind with
     | .move => t.rate
     | .dry => t.rate * derate / 16 * override / 100
     | .weld => t.rate * derate / 16 * override / 100)

/-- R24, R31: the target of a computation. -/
def targetSpeed (s : State) : Nat :=
  if s.tg.phaseOpen then
    match s.tg.target with
    | some t => recordSpeed t (descriptorAtP s).derate s.px.overrideInForce
    | none => 0
  else 0

/-- R32: the target followed at the ramp rates. -/
def rampedSpeed (accel decel vPrev target : Nat) : Nat :=
  if vPrev - decel ≤ min target (vPrev + accel) then min target (vPrev + accel) else vPrev - decel

/-- R33: the smallest of v_ramped, v_perm and the clamped d. -/
def newSpeed (c : Constants) (vPrev target d : Nat) : Nat :=
  min (rampedSpeed c.accel c.decel vPrev target)
    (min (permittedSpeed c.decel (min d Config.distanceClamp)) (min d Config.distanceClamp))

/-- R33: the fence was nearer than a stop at D allowed. -/
def fenceIntrudes (c : Constants) (vPrev d : Nat) : Bool :=
  decide (permittedSpeed c.decel (min d Config.distanceClamp) + c.decel < vPrev)

/-- p advanced by `v` (R33). -/
def advance (d : Direction) (p v : Nat) : Nat :=
  match d with
  | .up => p + v
  | .down => p - v

/-- The reports of R34 to R37. -/
inductive TravelReport where
  | none | pathEnd | stall | holdExpired | holdStop
  deriving DecidableEq, Repr

/-- What a computation brings about. -/
structure TravelResult where
  p : Nat
  v : Nat
  fence : Nat
  intrusion : Bool
  stallCount : Nat
  stirCount : Nat
  report : TravelReport
  deriving DecidableEq, Repr

/-- R37: the awaited joint is VOID and `p` is its hold point. -/
def atVoidHold (u : JointUnit) (p : Nat) : Bool :=
  match u.awaited with
  | some a => decide (a.state = .void) && decide (a.hold = p)
  | none => false

/-- R34 to R37: the report of a computation that leaves p at `p` with v_new `v`, and the two counters after it. -/
def travelReport (s : State) (p v : Nat) : TravelReport × Nat × Nat :=
  if 0 < v then (.none, 0, 0)
  else
    match s.tg.phaseOpen, s.tg.target with
    | true, some t =>
      if p = t.endPos then (.pathEnd, s.tg.stallCount, s.tg.stirCount)
      else if t.kind = .weld then
        if atVoidHold s.ju p then (.holdStop, s.tg.stallCount, s.tg.stirCount)
        else (if s.constants.stirLimit ≤ s.tg.stirCount + 1 then .holdExpired else .none, s.tg.stallCount,
              min (s.tg.stirCount + 1) 2500)
      else (if s.constants.stallLimit ≤ s.tg.stallCount + 1 then .stall else .none, countUp s.tg.stallCount,
            s.tg.stirCount)
    | _, _ => (.none, s.tg.stallCount, s.tg.stirCount)

/-- The steps of R24 in order, from a known p. -/
def computeTravel (s : State) (p : Nat) : TravelResult :=
  let fence := fenceAt s p
  let d := distance fence p
  let v := newSpeed s.constants s.tg.v (targetSpeed s) d
  let p' := advance s.tg.dir p v
  let r := travelReport s p' v
  { p := p', v := v, fence := fence, intrusion := fenceIntrudes s.constants s.tg.v d, stallCount := r.2.1
    stirCount := r.2.2, report := r.1 }

/-- R24: the computation made at an expiry, or none where none is made: the travel phase is closed and v is 0. None is
made while p is unknown (log 21). -/
def travelDue (s : State) : Option TravelResult :=
  match s.tg.p with
  | none => none
  | some p => if s.tg.phaseOpen || decide (0 < s.tg.v) then some (computeTravel s p) else none

/-- The Travel Governor after a computation; a report closes the travel phase (R23, R33). With the enable off (log 36) it
advances p as well, from the position of the latest feedback, though R172 has p follow the feedback (the model's choice,
log 39). -/
def applyTravel (r : TravelResult) (s : State) : State :=
  raiseIf r.intrusion .fenceIntrusion
    (s.withTg { s.tg with p := some r.p, v := r.v, fence := some r.fence, stallCount := r.stallCount
                          stirCount := r.stirCount, phaseOpen := s.tg.phaseOpen && decide (r.report = .none) })

/-- R39: v is 0 at once and the travel phase closes. -/
def immediateStop (s : State) : State :=
  s.withTg { s.tg with v := 0, phaseOpen := false }

/-- R22, R23: the executor withdraws the motion target. -/
def withdrawTarget (s : State) : State :=
  s.withTg { s.tg with target := none, phaseOpen := false }

/-- R22: the direction of a fresh record or a MOVE from `a` to `b`, kept where they are equal. -/
def directionTo (a b : Nat) (held : Direction) : Direction :=
  if a < b then .up else if b < a then .down else held

/-- R22, R23: the motion target given at record start. -/
def giveTarget (t : MotionTarget) (d : Direction) (opens : Bool) (s : State) : State :=
  s.withTg { s.tg with target := some t, dir := d, phaseOpen := opens, stallCount := 0, lastEnd := some t.endPos }

/-- R45: the values of LINE RESET and JOB CLEAR, direction and p kept. -/
def travelCleared (t : TravelGovernor) : TravelGovernor :=
  { t with v := 0, target := none, phaseOpen := false, fence := none, stallCount := 0, stirCount := 0, lastEnd := none
           followReported := false }

end Sys2Proof.Machine
end

