-- ==== Sys2Proof/Machine/JointUnit.lean ====
section
/-! DEFINITION. The Joint Unit: entries created, released, closed and removed; the awaited joint created, evaluated,
counted down and closed (chapter 7). -/

namespace Sys2Proof.Machine

/-- R64: the release point of a lead part. -/
def releasePoint (d : Direction) (start release : Nat) : Nat :=
  match d with
  | .up => start + release
  | .down => start - release

/-- R65: the hold point of a trail part. The fetch has refused one that would fall below 0. -/
def holdPoint (d : Direction) (x standoff : Nat) : Nat :=
  match d with
  | .up => x - standoff
  | .down => x + standoff

/-- R125: the entry a lead record creates, newest, PENDING, ready age 0; the current lead names it. -/
def openJoint (id : Nat) (partner : Rank) (release : Nat) (u : JointUnit) : JointUnit :=
  { u with openList := u.openList ++ [{ id := id, partner := partner, state := .pending, age := 0, release := release }]
           currentLead := some id }

/-- R132: the state and cool remaining of the awaited joint, from the partner's entry for its id, if there is one. -/
def evaluateWith (rep : Option JointReport) (coolDwell : Nat) (st : AwaitedState) (rem : Nat) : AwaitedState × Nat :=
  match st with
  | .clear => (.clear, rem)
  | .void => (.void, rem)
  | .waiting =>
    match rep with
    | none => (.waiting, rem)
    | some r =>
      match r.state with
      | .pending => (.waiting, rem)
      | .ready => if coolDwell ≤ r.age then (.clear, 0) else (.cooling, coolDwell - r.age)
      | .void => (.void, rem)
  | .cooling =>
    match rep with
    | none => (.cooling, rem)
    | some r =>
      match r.state with
      | .pending => (.cooling, rem)
      | .ready => if coolDwell ≤ r.age then (.clear, 0) else (.cooling, coolDwell - r.age)
      | .void => (.cooling, rem)

/-- R132: the awaited joint evaluated against a partner's Open Joint List. -/
def evaluateJoint (reports : List JointReport) (a : AwaitedJoint) : AwaitedJoint :=
  let e := evaluateWith (reports.find? (fun r => r.id == a.id)) a.coolDwell a.state a.remaining
  { a with state := e.1, remaining := e.2 }

/-- R131: the awaited joint a trail record creates, evaluated at once against the partner's list as filed. -/
def awaitJoint (id : Nat) (partner : Rank) (x hold cool : Nat) (reports : List JointReport) (u : JointUnit) : JointUnit :=
  { u with awaited := some (evaluateJoint reports
      { id := id, partner := partner, entryX := x, hold := hold, coolDwell := cool, state := .waiting, remaining := 0 }) }

/-- The entry the current lead names. -/
def isLead (u : JointUnit) (e : OpenJoint) : Bool :=
  u.currentLead == some e.id

/-- R126: p stands at or beyond the release point in the direction held. -/
def releasePassed (d : Direction) (p release : Nat) : Bool :=
  match d with
  | .up => decide (release ≤ p)
  | .down => decide (p ≤ release)

/-- R126: the PENDING lead entry whose release point p has passed becomes READY with ready age 0. -/
def releaseEntry (u : JointUnit) (d : Direction) (p : Nat) (e : OpenJoint) : OpenJoint :=
  if isLead u e && e.state == .pending && releasePassed d p e.release then { e with state := .ready, age := 0 } else e

/-- R126: the release test finds the release point passed. -/
def releases (u : JointUnit) (d : Direction) (p : Nat) : Bool :=
  u.openList.any (fun e => isLead u e && e.state == .pending && releasePassed d p e.release)

/-- R126: the release test, the head being STIRRING. -/
def releaseTest (s : State) : State :=
  match s.tg.p with
  | none => s
  | some p =>
    if releases s.ju s.tg.dir p then
      setJoints { s.ju with openList := s.ju.openList.map (releaseEntry s.ju s.tg.dir p), currentLead := none } s
    else s

/-- R127: the ready age of a READY entry increases by 1. -/
def ageJoint (e : OpenJoint) : OpenJoint :=
  if e.state = .ready then { e with age := countUp e.age } else e

/-- R133: a COOLING awaited joint counts down by 1, and becomes CLEAR at 0. -/
def coolDown (a : AwaitedJoint) : AwaitedJoint :=
  if a.state = .cooling then
    { a with remaining := a.remaining - 1, state := if a.remaining ≤ 1 then .clear else .cooling }
  else a

/-- R127: the Joint Unit's work at an expiry, in its order. -/
def jointExpiry (s : State) : State :=
  let s := setJoints { s.ju with openList := s.ju.openList.map ageJoint } s
  let s := if s.hs.state = .stirring then releaseTest s else s
  setJoints { s.ju with awaited := s.ju.awaited.map coolDown } s

/-- R133: this expiry's count brings a COOLING awaited joint to CLEAR. -/
def coolingEnds (s : State) : Bool :=
  s.ju.awaited.any (fun a => a.state == .cooling && decide (a.remaining ≤ 1))

/-- R128: the fate of the PENDING lead entry when its record closes. -/
def closeLead (k : EndKind) (u : JointUnit) (e : OpenJoint) : OpenJoint :=
  if isLead u e && e.state == .pending then
    if k = .complete then { e with state := .ready, age := 0 } else { e with state := .void }
  else e

/-- R128: the current lead names a PENDING entry. -/
def hasPendingLead (u : JointUnit) : Bool :=
  u.openList.any (fun e => isLead u e && e.state == .pending)

/-- R136: an id becomes the newest; the oldest of five is dropped. -/
def pushClosed (id : Nat) (ids : List Nat) : List Nat :=
  let l := ids.filter (fun i => i ≠ id) ++ [id]
  l.drop (l.length - Config.jointCapacity)

/-- R128, R135: the Joint Unit is told that a record has closed. -/
def jointsClosed (k : EndKind) (u : JointUnit) : JointUnit :=
  { openList := u.openList.map (closeLead k u)
    currentLead := none
    awaited := none
    closedList := match u.awaited with
      | some a => pushClosed a.id u.closedList
      | none => u.closedList }

/-- R128, R135, with the attention flag of R128. -/
def closeJoints (k : EndKind) (s : State) : State :=
  raiseIf (hasPendingLead s.ju && k != .complete) .jointVoided (setJoints (jointsClosed k s.ju) s)

/-- R129: the entry is removed by its partner's Closed Joint List. -/
def removedBy (sender : Rank) (closed : List Nat) (e : OpenJoint) : Bool :=
  e.partner == sender && closed.contains e.id

/-- R129: the entries a filing removes go, in one event; a removed current lead goes with its entry. -/
def removeJoints (sender : Rank) (closed : List Nat) (u : JointUnit) : JointUnit :=
  { u with
    openList := u.openList.filter (fun e => !removedBy sender closed e)
    currentLead := if u.openList.any (fun e => removedBy sender closed e && isLead u e) then none else u.currentLead }

/-- R132: a filing from the partner rank evaluates the awaited joint. -/
def filingEvaluates (sender : Rank) (reports : List JointReport) (u : JointUnit) : JointUnit :=
  { u with awaited := u.awaited.map (fun a => if a.partner = sender then evaluateJoint reports a else a) }

/-- R140: the collections emptied. -/
def emptyJoints (s : State) : State :=
  setJoints {} s

end Sys2Proof.Machine
end

