-- ==== Sys2Proof/Machine/HeadSequencer.lean ====
section
/-! DEFINITION. The Head Sequencer's own work: phases, retracts, the weld request, the force step (chapter 6). What it
reports to the Pass Executor is in the families that call these. -/

namespace Sys2Proof.Machine

/-- The head enters a state: the phase count starts again at 0 (R99). -/
def enterHead (x : HeadState) (s : State) : State :=
  let s := setHead x s
  s.withHs { s.hs with phase := 0 }

/-- The head is about to leave STIRRING for RETRACTING: the release test is made with p as it stands (R126) and the
travel phase closes (R23). -/
def leaveStirring (s : State) : State :=
  if s.hs.state = .stirring then
    let s := releaseTest s
    s.withTg { s.tg with phaseOpen := false }
  else s

/-- R112: on entering RETRACTING the spindle demand and the depth trim become 0 and the Z command is kept. -/
def enterRetracting (s : State) : State :=
  let s := enterHead .retracting (leaveStirring s)
  s.withHs { s.hs with spindle := 0, trim := 0 }

/-- A head phase in which the tool may be down or turning and no retract is under way. -/
def HeadState.working : HeadState → Bool
  | .spinningUp => true
  | .plunging => true
  | .dwelling => true
  | .stirring => true
  | _ => false

/-- R115: a fault retract, by head state. -/
def faultRetract (s : State) : State :=
  if s.hs.state.working then
    let s := enterRetracting s
    s.withHs { s.hs with retractPending := false }
  else s

/-- R114: a normal retract, by head state. -/
def normalRetract (s : State) : State :=
  if s.hs.state = .stirring ∧ 0 < s.tg.v then s.withHs { s.hs with retractPending := true }
  else if s.hs.state.working then enterRetracting s
  else s

/-- R118, R113, R173: on entering HALTED the spindle demand and trim become 0, retract pending no, the weld parameters
none, and the drive demand enable goes off. -/
def enterHalted (s : State) : State :=
  let s := enterHead .halted s
  let s := s.withHs { s.hs with spindle := 0, trim := 0, retractPending := false, weld := none }
  s.withDp { s.dp with enable := false }

/-- R112: the retract completes: PARKED, no weld parameters, no retract pending. -/
def enterParked (s : State) : State :=
  let s := enterHead .parked s
  s.withHs { s.hs with retractPending := false, weld := none }

/-- R105: the head enters STIRRING from DWELLING: trim 0, Z command at the plunge depth; the travel phase of the fresh
WELD opens and the stationary-stir counter is 0 (R23, R36). -/
def enterStirring (w : WeldParams) (s : State) : State :=
  let s := enterHead .stirring s
  let s := s.withHs { s.hs with trim := 0, zCommand := w.depth }
  s.withTg { s.tg with phaseOpen := s.tg.target.isSome, stirCount := 0 }

/-- R104, R105: the plunge completes: DWELLING, and at once STIRRING with a plunge dwell of 0. -/
def plungeDone (w : WeldParams) (s : State) : State :=
  let s := enterHead .dwelling s
  if w.dwell = 0 then enterStirring w s else s

/-- R101: a weld request to a PARKED head, with the clamps made: SPINNING_UP, phase 0, the record rpm, Z command 0.
With the enable off too (log 36), where R172 has it follow the measured Z: 0 until the next feedback (the model's choice,
log 39). -/
def spinUp (w : WeldParams) (s : State) : State :=
  let s := enterHead .spinningUp s
  s.withHs { s.hs with weld := some w, spindle := w.rpm, zCommand := 0 }

/-- R101: the head takes the weld request. -/
def weldTaken (s : State) : Bool :=
  s.hs.state == .parked && s.dp.clamp && !s.dp.estop && s.su.station == .running

/-- R102: a continuation's parameters, taken only while STIRRING. -/
def continueWeld (rpm setpoint : Nat) (cont : Bool) (s : State) : State :=
  match s.hs.state, s.hs.weld with
  | .stirring, some w =>
    s.withHs { s.hs with weld := some { w with rpm := rpm, setpoint := setpoint, cont := cont }, spindle := rpm }
  | _, _ => s

/-- R110, R111: a report from the Travel Governor puts a STIRRING head in RETRACTING. -/
def retractOnReport (s : State) : State :=
  if s.hs.state = .stirring then enterRetracting s else s

/-- R110: a path end: the head stays STIRRING with CONTINUE set and retracts with it clear. -/
def headPathEnd (s : State) : State :=
  match s.hs.weld with
  | some w => if w.cont then s else retractOnReport s
  | none => retractOnReport s

/-! ### The force step (R107) -/

/-- Step 1: the effective setpoint. -/
def effectiveSetpoint (setpoint : Nat) (offset : Int) : Int :=
  clampInt 0 Config.forceTop (setpoint + offset)

/-- Steps 2 and 3: the bounded step from the error. -/
def trimStep (gain maxStep : Nat) (e : Int) : Int :=
  clampInt (-(maxStep : Int)) maxStep (Int.tdiv (e * gain) 64)

/-- Steps 2 to 4: the sum of trim and step before the clamp. -/
def trimSum (s : State) (w : WeldParams) : Int :=
  s.hs.trim + trimStep s.constants.forceGain s.constants.maxTrimStep
    (effectiveSetpoint w.setpoint (descriptorAtP s).offset - s.hs.force)

/-- Step 5: the Z command for a trim. -/
def trimmedDepth (depth : Nat) (trim : Int) : Nat :=
  (clampInt 0 Config.depthTop (depth + trim)).toNat

/-- R107: one force step. -/
def forceStep (w : WeldParams) (s : State) : State :=
  let sum := trimSum s w
  let trim := clampInt (-(s.constants.trimLimit : Int)) s.constants.trimLimit sum
  raiseIf (decide (trim ≠ sum)) .forceSaturated
    (s.withHs { s.hs with trim := trim, zCommand := trimmedDepth w.depth trim })

/-- R121: at an expiry the phase count and the force age increase, in every head state. -/
def headCounts (s : State) : State :=
  s.withHs { s.hs with phase := countUp s.hs.phase, forceAge := countUp s.hs.forceAge }

/-- The ramps and the force step of R103 to R108 and R112, by head state, the counts being increased already. -/
def headRamps (s : State) : State :=
  match s.hs.state, s.hs.weld with
  | .plunging, some w => s.withHs { s.hs with zCommand := min (s.hs.zCommand + w.plungeRate) w.depth }
  | .stirring, some w => if s.hs.forceAge < Config.forceHoldAge then forceStep w s else s
  | .retracting, _ => s.withHs { s.hs with zCommand := s.hs.zCommand - s.constants.retractRate }
  | _, _ => s

/-- The force checks apply: PLUNGING, DWELLING or STIRRING (R108, R109). -/
def HeadState.pressing : HeadState → Bool
  | .plunging => true
  | .dwelling => true
  | .stirring => true
  | _ => false

/-- R108: FORCE_LOST is found, in the states that press the tool alone. Once HOLD_EXPIRED has put the head in RETRACTING it is
not, at the same expiry either (R108, R115): what R41 files as the later cause is a fault that does arise then (log 37). -/
def forceLostFound (s : State) : Bool :=
  s.hs.state.pressing && decide (Config.forceLostAge ≤ s.hs.forceAge)

/-- R103, R104: the timeout of the head state that ends in a fault retract, with its detail. -/
def phaseTimeout (s : State) : Option Detail :=
  match s.hs.state with
  | .spinningUp => if s.constants.spinUpTimeout ≤ s.hs.phase then some .spinTimeout else none
  | .plunging => if s.constants.plungeTimeout ≤ s.hs.phase then some .plungeTimeout else none
  | _ => none

/-- R113: the retract timeout is reached. -/
def retractTimedOut (s : State) : Bool :=
  s.hs.state == .retracting && decide (s.constants.retractTimeout ≤ s.hs.phase)

/-- R105: the dwell count has reached the plunge dwell. -/
def dwellDone (s : State) : Option WeldParams :=
  match s.hs.state, s.hs.weld with
  | .dwelling, some w => if w.dwell ≤ s.hs.phase then some w else none
  | _, _ => none

/-- R105: the head enters STIRRING if its dwell is done. -/
def endDwell (s : State) : State :=
  match dwellDone s with
  | some w => enterStirring w s
  | none => s

/-- R114: a pending normal retract finds v at 0. -/
def pendingRetractDue (s : State) : Bool :=
  s.hs.state == .stirring && s.hs.retractPending && decide (s.tg.v = 0)

/-- R114: the pending normal retract begins if it is due. -/
def startPendingRetract (s : State) : State :=
  if pendingRetractDue s then enterRetracting s else s

/-- R123: the values of LINE RESET, head state, Z command, force value and force age kept. -/
def headCleared (h : HeadSequencer) : HeadSequencer :=
  { h with phase := 0, spindle := 0, trim := 0, weld := none, retractPending := false }

end Sys2Proof.Machine
end

