-- ==== Sys2Proof/Machine/Resets.lean ====
section
/-! DEFINITION. The three resets as each block's table gives them: power-up, LINE RESET taking effect, and the part of
JOB CLEAR that every block shares (R19, R45, R55, R70, R98, R123, R140, R157, R181, R189). -/

namespace Sys2Proof.Machine

/-- R159: the station after power-up, with the pins and levels it reads (R1, R178, R179). A frame under way on the line is
not received (R146). -/
def powerUpState (l : PowerUpLines) : State :=
  let own : Rank := l.straps.toFin
  { ownRank := own
    clock := 0
    constants := {}
    nt := { view := ownView own, entries := freshEntries own }
    rm := List.replicate 8 {}
    tg := {}
    pm := []
    px := {}
    hs := {}
    ju := {}
    dp := { estop := l.estopAsserted, clamp := l.clampMade }
    su := {}
    pli := { reception := if l.lineBusy then .notTaken else .none } }

/-- R157: the transmit queue loses the frames not yet begun; period count, hold-off and change waiting start afresh. -/
def lineCleared (l : PeerLine) : PeerLine :=
  { l with beacon := none, replies := [], periodCount := 0, periodOverrun := false, holdOff := false, changeWaiting := false }

/-- R167: a LINE RESET takes effect, in one event. The reset is reported as a change (R157, log 11). -/
def lineResetEffect (s : State) : State :=
  noteChange
    { s with
      constants := {}
      nt := { view := ownView s.ownRank, entries := freshEntries s.ownRank }
      tg := { travelCleared s.tg with dir := .up }
      px := {}
      hs := headCleared s.hs
      ju := {}
      dp := { s.dp with enable := false, lostReported := false, driveReported := false }
      su := { station := .unconfigured, resetCause := .lineReset }
      pli := lineCleared s.pli }

/-- R169: a retract from HALTED is under way: the head is RETRACTING and no chain runs. -/
def retractFromHalted (s : State) : Bool :=
  s.hs.state == .retracting && s.su.station != .running

/-- R169: a held LINE RESET takes effect once no retract from HALTED is under way; nothing while a chain runs. -/
def heldResetEffect (s : State) : State :=
  if s.su.lineResetPending && s.su.station != .running && s.hs.state != .retracting then lineResetEffect s else s

/-- R45, R123, R140, R181: what a JOB CLEAR that is taken resets in the Travel Governor, head, Joint Unit and Drive Port. -/
def jobCleared (s : State) : State :=
  let s := emptyJoints s
  let s := s.withTg (travelCleared s.tg)
  let s := s.withHs { s.hs with trim := 0, weld := none, retractPending := false }
  s.withDp { s.dp with lostReported := false, driveReported := false }

/-- R120, R173: a retract from HALTED begins: RETRACTING as R112, with the drive demand enable on. -/
def beginRetractFromHalted (s : State) : State :=
  let s := enterRetracting s
  s.withDp { s.dp with enable := true }

end Sys2Proof.Machine
end

