-- ==== Sys2Proof/Machine/PassExecutor.lean ====
section
/-! DEFINITION. The Pass Executor: fetch and its checks, record start, ends and causes, the next record, the chain's end
(chapter 5). -/

namespace Sys2Proof.Machine

/-- The carriage is at rest for the executor: v is 0 and the head PARKED (R71). -/
def atRest (s : State) : Bool :=
  decide (s.tg.v = 0) && s.hs.state == .parked

/-- The end `e` is decided. -/
def decideEnd (e : Decision) (s : State) : State :=
  s.withPx { s.px with decided := some e }

/-! ### The chain's end (R91, R92, R95) -/

/-- The position reached: p, or a free value while p is unknown (R91, log 8). -/
def positionReached (s : State) : Nat :=
  match s.tg.p with
  | some p => p
  | none => (Config.freePosition s.freeCount).toNat

/-- The count of free values after `positionReached` has been read. -/
def freeAfterPosition (s : State) : Nat :=
  if s.tg.p.isSome then s.freeCount else s.freeCount + 1

/-- R91: the remaining distance: measured for a WELD, DRY or MOVE that passed its fetch checks, 0 otherwise. -/
def remainingDistance (s : State) : Nat :=
  match s.px.record with
  | some r => if s.px.passed && r.travelKind.isSome then distance r.endPos (positionReached s) else 0
  | none => 0

/-- R91: the completion record of a chain that ends with `e`. -/
def completionOf (e : Decision) (s : State) : Completion :=
  { index := s.px.index, kind := some e.kind, detail := e.detail, secondary := s.px.secondary
    position := positionReached s, remaining := remainingDistance s }

/-- COMPLETE, SHORT and VOID_ALT are the normal ends (R83). -/
def EndKind.normal : EndKind → Bool
  | .complete => true
  | .short => true
  | .voidAlt => true
  | _ => false

/-- R91, R92, R95: the chain ends with `e`: the completion record is written once, and executor and station move; with a
LINE RESET pending, the reset takes effect in their place. -/
def endChain (e : Decision) (s : State) : State :=
  let c := completionOf e s
  let free := freeAfterPosition s
  let s := s.withPx { s.px with completion := c, decided := none, secondary := none, firstRecord := false
                                record := none, passed := false, leadPartner := none, trailPartner := none }
  let s := setCompletionPending true (s.withFree free)
  if s.su.lineResetPending then lineResetEffect s
  else if e.kind.normal then setStation .idle (setExecutor .idle s)
  else setStation .stopped (setExecutor .stopped s)

/-- A record closes with a stopping cause: the Joint Unit is told, the target withdrawn, and the chain ends (R89). -/
def closeStopping (e : Decision) (s : State) : State :=
  endChain e (withdrawTarget (closeJoints e.kind s))

/-! ### The fetch checks (R76 to R78) -/

/-- The value lies in the range. -/
def within (lo hi x : Nat) : Bool :=
  decide (lo ≤ x) && decide (x ≤ hi)

/-- R61, R64, R65: the fields of the lead part; absent with id 0. -/
def leadFieldsOk (r : PassRecord) : Bool :=
  r.leadId == 0 || (within 1 255 r.leadId && within 1 Config.railTop r.release)

/-- R65: the fields of the trail part; absent with id 0. -/
def trailFieldsOk (r : PassRecord) : Bool :=
  r.trailId == 0 || (within 1 255 r.trailId && within 0 Config.railTop r.entryX && within 0 Config.railTop r.standoff
    && within 0 Config.countTop r.coolDwell)

/-- Check 2 of R77: every field read for the kind and role (R58) lies in its range of chapter 4. -/
def fieldsOk (role : Role) (k : RecordKind) (r : PassRecord) : Bool :=
  match k with
  | .weld =>
    within 0 Config.railTop r.endPos && within 1 400 r.rate && within 200 3000 r.rpm && within 100 4095 r.setpoint
      && leadFieldsOk r && trailFieldsOk r
      && (role == .continuation ||
          (within 0 Config.railTop r.start && within 500 12000 r.plungeDepth && within 1 255 r.plungeRate
            && within 0 2500 r.plungeDwell))
  | .dry => within 0 Config.railTop r.start && within 0 Config.railTop r.endPos && within 1 400 r.rate
  | .move => within 0 Config.railTop r.endPos && within 1 2000 r.rate
  | .pause => within 1 65535 r.rate
  | .branch => within 0 511 r.rate

/-- The record is fetched fresh and has a start position: a fresh WELD or DRY (R58). -/
def hasStart (role : Role) (k : RecordKind) : Bool :=
  role == .fresh && (k == .weld || k == .dry)

/-- The kind gives a motion target (R22). -/
def travels (k : RecordKind) : Bool :=
  k == .weld || k == .dry || k == .move

/-- The direction of a WELD for its joint checks: start to end when fresh, the direction held for a continuation (R78). -/
def weldDirection (role : Role) (held : Direction) (r : PassRecord) : Direction :=
  match role with
  | .fresh => directionTo r.start r.endPos held
  | .continuation => held

/-- `x` lies ahead of `a` in direction `d`. -/
def aheadOf (d : Direction) (a x : Nat) : Bool :=
  match d with
  | .up => decide (a < x)
  | .down => decide (x < a)

/-- R78: the geometry of the lead part is refused. -/
def leadGeometryBad (role : Role) (r : PassRecord) : Bool :=
  r.leadId != 0 && (role == .continuation || decide (distance r.endPos r.start < r.release))

/-- R78: the geometry of the trail part is refused, from a start at `a`. -/
def trailGeometryBad (d : Direction) (a : Nat) (r : PassRecord) : Bool :=
  r.trailId != 0 &&
    (!(aheadOf d a r.entryX && aheadOf d r.entryX r.endPos)
      || match d with
         | .up => decide (r.entryX < a + r.standoff)
         | .down => decide (a < r.entryX + r.standoff))

/-- The detail of the first check that fails. -/
def firstFailure : List (Bool × Detail) → Option Detail
  | [] => none
  | (bad, d) :: rest => if bad then some d else firstFailure rest

/-- R77, R78: the checks in order, for a record of kind `k` with p at `p`; none where every check passes. -/
def judgeAt (s : State) (k : RecordKind) (r : PassRecord) (p : Nat) : Option Detail :=
  let role := s.px.role
  let fresh := hasStart role k
  let continued := role == .continuation && k == .weld
  let d := weldDirection role s.tg.dir r
  let a := if role == .fresh then r.start else p
  let lead := k == .weld && r.leadId != 0
  let trail := k == .weld && r.trailId != 0
  let behind := rankBehind s d
  let ahead := rankAhead s d
  firstFailure
    [ (role == .continuation && k != .weld, .continueKind),
      (!fieldsOk role k r, .fieldRange),
      (fresh && r.start != p, .startMismatch),
      ((fresh && r.endPos == r.start) || (continued && r.endPos == p), .zeroLength),
      (continued && !aheadOf s.tg.dir p r.endPos, .direction),
      (travels k && (decide (r.endPos < s.constants.railMin) || decide (s.constants.railMax < r.endPos)), .railRange),
      (k == .weld && spanOpen s.rm a r.endPos, .pathOpen),
      (k == .weld && (leadGeometryBad role r || trailGeometryBad d a r), .jointGeometry),
      ((lead && behind.isNone) || (trail && ahead.isNone), .jointPartner),
      (lead && s.ju.openList.any (fun e => e.id == r.leadId), .jointDuplicate),
      ((lead && behind.any (fun q => (filedClosed s q).contains r.leadId))
        || (trail && s.ju.closedList.contains r.trailId), .jointReused) ]

/-- As `judgeAt`, with p as it stands: a WELD, DRY or MOVE fetched while p is unknown fails START_MISMATCH in its place
among the checks (R77). -/
def judgeRecord (s : State) (k : RecordKind) (r : PassRecord) : Option Detail :=
  match s.tg.p with
  | some p => judgeAt s k r p
  | none =>
    firstFailure
      [ (s.px.role == .continuation && k != .weld, .continueKind),
        (!fieldsOk s.px.role k r, .fieldRange),
        (travels k, .startMismatch) ]

/-! ### Fetch (R75, R76, R79) -/

/-- R79: a fetch that fails. Fresh: the chain ends at once. Continuation: a normal retract is asked, and the chain ends
at rest. -/
def programCheck (d : Detail) (s : State) : State :=
  let e : Decision := ⟨.programCheck, some d⟩
  let s := raise .programCheck (s.withPx { s.px with passed := false })
  match s.px.role with
  | .fresh => closeStopping e s
  | .continuation =>
    let s := setExecutor .awaitHeadEnd (decideEnd e (withdrawTarget s))
    let s := normalRetract s
    if atRest s then closeStopping e s else s

/-- R75, step 3, R183: NOTIFY is raised and the active index recorded. -/
def notifyFetch (r : PassRecord) (s : State) : State :=
  if r.notify then
    let s := raise .notify s
    s.withSu { s.su with notifyIndex := some s.px.index }
  else s

/-- R75, steps 2 and 3: the index taken, the pending override adopted, the record read, NOTIFY acted on. -/
def takeIndex (i : Nat) (s : State) : State :=
  let s := setIndex i s
  let s := s.withPx { s.px with overrideInForce := s.px.pendingOverride.getD s.px.overrideInForce
                                pendingOverride := none
                                record := some (readRecord s.pm i)
                                passed := false
                                leadPartner := none
                                trailPartner := none }
  notifyFetch (readRecord s.pm i) s

/-! ### Record start (R81, R82, R101, R125, R131) -/

/-- R81: the Joint Unit's part of a WELD's start: the lead entry, then the awaited joint, in one event. -/
def startJoints (r : PassRecord) (d : Direction) (s : State) : State :=
  let u := match s.px.role, s.px.leadPartner with
    | .fresh, some q => if r.leadId = 0 then s.ju else openJoint r.leadId q (releasePoint d r.start r.release) s.ju
    | _, _ => s.ju
  let u := match s.px.trailPartner with
    | some q =>
      if r.trailId = 0 then u
      else awaitJoint r.trailId q r.entryX (holdPoint d r.entryX r.standoff) r.coolDwell (filedOpen s q) u
    | none => u
  setJoints u s

/-- R86, R101: a fault found at the weld request, CLAMP_OPEN: the record closes at once. -/
def clampOpen (s : State) : State :=
  closeStopping ⟨.fault, some .clampOpen⟩ (raise .fault s)

/-- R22: the direction a record to `x` gives the Travel Governor: UP if `x` is above p, DOWN if below, kept where they are
equal. -/
def travelDirection (x : Nat) (s : State) : Direction :=
  directionTo (s.tg.p.getD x) x s.tg.dir

/-- R81: a fresh WELD is handed on to the Travel Governor, the Joint Unit and the Head Sequencer. The carriage's direction is
that from p (R22); the joint parts have the record's own, from its start to its end (R78), which differs only where a WELD held
in WAIT_SLOT no longer has p at its start (log 34). -/
def startFreshWeld (r : PassRecord) (s : State) : State :=
  let d := weldDirection .fresh s.tg.dir r
  let s := giveTarget ⟨.weld, r.endPos, r.rate⟩ (travelDirection r.endPos s) false s
  let s := startJoints r d s
  if weldTaken s then
    spinUp ⟨r.rpm, r.plungeDepth, r.plungeRate, r.plungeDwell, r.setpoint, r.cont⟩ s
  else if s.hs.state = .parked ∧ s.dp.clamp = false then clampOpen s
  else s

/-- R81, R102: a continuation is handed on; the head stays STIRRING. -/
def startContinuation (r : PassRecord) (s : State) : State :=
  let d := s.tg.dir
  let s := giveTarget ⟨.weld, r.endPos, r.rate⟩ d true s
  let s := startJoints r d s
  continueWeld r.rpm r.setpoint r.cont s

/-- R81: a MOVE or DRY is handed on. -/
def startTravel (k : TravelKind) (r : PassRecord) (s : State) : State :=
  giveTarget ⟨k, r.endPos, r.rate⟩ (travelDirection r.endPos s) true s

/-- R22, R81: a PAUSE gives the Travel Governor no target; its stall counter is 0 as at every record start, and the pause count
is set. -/
def startPause (r : PassRecord) (s : State) : State :=
  (s.withTg { s.tg with stallCount := 0 }).withPx { s.px with pauseCount := r.rate }

/-- R81: the record starts: ESTOP if the stop line is asserted, else ACTIVE and handed on, whatever the drive demand enable
(log 36). -/
def handRecordOn (r : PassRecord) (s : State) : State :=
  if s.dp.estop then closeStopping ⟨.estop, none⟩ s
  else
    let s := setExecutor .active s
    match r.kind with
    | some .move => startTravel .move r s
    | some .dry => startTravel .dry r s
    | some .pause => startPause r s
    | some .weld =>
      match s.px.role with
      | .fresh => startFreshWeld r s
      | .continuation => startContinuation r s
    | _ => s

/-- R82: a fresh WELD with a lead part that finds the Open Joint List full waits in WAIT_SLOT. -/
def mustWait (r : PassRecord) (s : State) : Bool :=
  r.kind == some .weld && s.px.role == .fresh && r.leadId != 0 && decide (Config.jointCapacity ≤ s.ju.openList.length)

/-- R81, R82: a record that has passed its fetch starts, or waits. -/
def startRecord (r : PassRecord) (s : State) : State :=
  if mustWait r s then setExecutor .waitSlot s else handRecordOn r s

/-- R78, R125: the record passes; the partner ranks its checks found are kept. -/
def recordPasses (k : RecordKind) (r : PassRecord) (s : State) : State :=
  let d := weldDirection s.px.role s.tg.dir r
  s.withPx { s.px with passed := true
                       leadPartner := if k = .weld ∧ r.leadId ≠ 0 then rankBehind s d else none
                       trailPartner := if k = .weld ∧ r.trailId ≠ 0 then rankAhead s d else none }

/-- R77 and on: a record that is no BRANCH is judged, and starts if it passes. -/
def judgeAndStart (k : RecordKind) (r : PassRecord) (s : State) : State :=
  match judgeRecord s k r with
  | some d => programCheck d s
  | none => startRecord r (recordPasses k r s)

/-- R76: a BRANCH that is not the first record is followed at once to its target, in the same fetch and role. That the active
index is the BRANCH's until the event that ends the fetch, and the target's from then on, is the model's choice: the spec gives
no moment within FETCHING (log 5). -/
def followBranch (r : PassRecord) (s : State) : State :=
  if 511 < r.rate then programCheck .fieldRange s
  else
    let s := setIndex r.rate s
    let t := readRecord s.pm r.rate
    let s := notifyFetch t (s.withPx { s.px with record := some t })
    match t.kind with
    | none => programCheck .invalidKind s
    | some .branch => programCheck .branchToBranch s
    | some k => judgeAndStart k t s

/-- R76 to R81: the fetch in progress runs to its end. A BRANCH in hand is followed here and not before: an event taken while
it is FETCHING meets the BRANCH's index (DESIGN CHOICE: the spec gives no moment for the branch within FETCHING, log 5). -/
def completeFetch (s : State) : State :=
  let first := s.px.firstRecord
  let s := s.withPx { s.px with firstRecord := false }
  match s.px.record with
  | none => programCheck .invalidKind s
  | some r =>
    match r.kind with
    | none => programCheck .invalidKind s
    | some .branch => if first then programCheck .branchFirst s else followBranch r s
    | some k => judgeAndStart k r s

/-- R75: a fetch of index `i` begins in a role and stays in progress, FETCHING, until the executor's next turn (log 5). It
leaves `i` as the active index also where the record read there is a BRANCH (log 5). An index of 512 or more fails at once. -/
def beginFetch (role : Role) (i : Nat) (s : State) : State :=
  let s := setExecutor .fetching (s.withPx { s.px with role := role, decided := none })
  if Config.recordCount ≤ i then programCheck .indexRange (s.withPx { s.px with record := none })
  else takeIndex i s

/-! ### The close of a record and the next record (R89) -/

/-- R89: the role and index fetched after a record that closes with an end kind; none where the chain ends. -/
def nextFetch (k : EndKind) (r : Option PassRecord) (i : Nat) : Option (Role × Nat) :=
  match r with
  | none => none
  | some r =>
    match k with
    | .complete =>
      if r.continues then some (.continuation, i + 1) else if r.chains then some (.fresh, i + 1) else none
    | .short => if r.tolerates && (r.chains || r.continues) then some (.fresh, i + 1) else none
    | .voidAlt => if r.chains || r.continues then some (.fresh, i + 2) else none
    | _ => none

/-- R89: the record closes with its decided end. -/
def closeRecord (s : State) : State :=
  match s.px.decided with
  | none => s
  | some e =>
    match nextFetch e.kind s.px.record s.px.index with
    | none => closeStopping e s
    | some (role, i) =>
      beginFetch role i ((withdrawTarget (closeJoints e.kind s)).withPx { s.px with firstRecord := false })

/-- The record closes if the carriage is at rest (R71, R84). -/
def closeIfRest (s : State) : State :=
  if atRest s then closeRecord s else s

/-- The executor waits for rest with a decided end (R71). -/
def waitingForRest (s : State) : Bool :=
  s.px.state == .awaitHeadEnd || s.px.state == .halting

/-- An end is decided and waits for the head and for v at 0; with the carriage at rest it closes at once (R84, R86). -/
def awaitEnd (e : Decision) (s : State) : State :=
  closeIfRest (setExecutor .awaitHeadEnd (decideEnd e s))

/-- The record in hand is a PAUSE (R62). -/
def pausing (s : State) : Bool :=
  s.px.state == .active && (s.px.record.bind PassRecord.kind) == some .pause

/-! ### Reports from the Travel Governor (R84, R85) -/

/-- R84: a path end decides COMPLETE; a WELD with CONTINUE closes at once with the head STIRRING. -/
def executorPathEnd (s : State) : State :=
  if s.px.state = .active then
    let s := decideEnd ⟨.complete, none⟩ s
    if s.px.record.any PassRecord.continues then closeRecord s
    else closeIfRest (setExecutor .awaitHeadEnd s)
  else s

/-- R85: STALL, HOLD_EXPIRED or a hold stop decides its end. -/
def executorShortEnd (e : Decision) (s : State) : State :=
  if s.px.state = .active then awaitEnd e s else s

/-! ### Causes (R80, R82, R86 to R88, R90) -/

/-- R90: a later cause is filed as the secondary fault, if that is empty. -/
def fileSecondary (d : Detail) (s : State) : State :=
  if s.px.secondary.isNone then s.withPx { s.px with secondary := some d } else s

/-- The decided end is a stopping cause (R83). -/
def stoppingDecided (s : State) : Bool :=
  s.px.decided.any (fun e => !e.kind.normal)

/-- A cause with end `e` and secondary code `d` reaches the executor while a chain runs (R80, R82, R86, R87, R90). In
FETCHING fresh, WAIT_SLOT and whatever finds the carriage at rest, the chain ends at once; otherwise the target is
withdrawn, the head asked for a fault retract, and the end awaited. -/
def stoppingCause (e : Decision) (d : Detail) (s : State) : State :=
  match s.px.state with
  | .idle => s
  | .stopped => s
  | .waitSlot => closeStopping e s
  | .fetching =>
    match s.px.role with
    | .fresh => closeStopping e s
    | .continuation => awaitEnd e (faultRetract (withdrawTarget s))
  | .active => awaitEnd e (faultRetract (withdrawTarget s))
  | .awaitHeadEnd =>
    let s := faultRetract (withdrawTarget s)
    if stoppingDecided s then fileSecondary d s else decideEnd e s
  | .halting => fileSecondary d (faultRetract (withdrawTarget s))

/-- R86, R90: a FAULT cause with its detail; each sets attention flag FAULT. -/
def faultCause (d : Detail) (s : State) : State :=
  stoppingCause ⟨.fault, some d⟩ d (raise .fault s)

/-- R115: a fault the Head Sequencer finds itself: its fault retract, and the report. -/
def headFault (d : Detail) (s : State) : State :=
  faultCause d (faultRetract s)

/-- RANK_CONFLICT is the decided end (R17, R87). -/
def conflictDecided (s : State) : Bool :=
  s.px.decided.any (fun e => e.kind == .rankConflict)

/-- R17, R87: a rank conflict or a beacon bearing the own rank, while RUNNING: v is 0 at once, and the cause reaches the
executor. One that arrives while RANK_CONFLICT is being obeyed changes nothing there (log 18). -/
def conflictStop (d : Detail) (s : State) : State :=
  if s.su.station = .running then
    let s := immediateStop s
    if conflictDecided s then s else stoppingCause ⟨.rankConflict, some d⟩ d s
  else s

/-- R16 to R18: the check; a conflict sets its flag in every station state and stops the carriage while RUNNING. -/
def checkRankConflict (s : State) : State :=
  if rankConflict s then conflictStop .neighbourOrder (raise .rankConflict s) else s

/-- R88, R90: the emergency stop reaches the executor: the chain ends at once with ESTOP, or with the stopping cause
decided before it and ESTOP as secondary. -/
def estopCause (s : State) : State :=
  match s.px.state with
  | .idle => s
  | .stopped => s
  | .awaitHeadEnd =>
    match s.px.decided with
    | some e => if e.kind.normal then closeStopping ⟨.estop, none⟩ s else closeStopping e (fileSecondary .estop s)
    | none => closeStopping ⟨.estop, none⟩ s
  | _ => closeStopping ⟨.estop, none⟩ s

/-- R86, R90, R96: RETRACT_TIMEOUT reaches the executor: the record closes at once, with it as first cause or secondary. -/
def retractTimeoutCause (s : State) : State :=
  let s := raise .fault s
  match s.px.state with
  | .idle => s
  | .stopped => s
  | _ =>
    match s.px.decided with
    | some e =>
      if e.kind.normal then closeStopping ⟨.fault, some .retractTimeout⟩ s
      else closeStopping e (fileSecondary .retractTimeout s)
    | none => closeStopping ⟨.fault, some .retractTimeout⟩ s

/-- R113: the retract times out: HALTED, the enable off, an immediate stop, the report; a held LINE RESET then takes
effect (R169). -/
def retractTimesOut (s : State) : State :=
  heldResetEffect (retractTimeoutCause (immediateStop (enterHalted s)))

/-- R112, R120, R166, R169: the head end: the record closes, or the station that was STOPPED becomes IDLE, or a held LINE
RESET takes effect. -/
def headEnd (s : State) : State :=
  if waitingForRest s then closeIfRest s
  else if s.su.lineResetPending && s.su.station != .running then lineResetEffect s
  else if s.px.state = .stopped then setStation .idle (setExecutor .idle s)
  else s

/-- R93: a HALT by executor state. -/
def haltTaken (s : State) : State :=
  let e : Decision := ⟨.halted, none⟩
  match s.px.state with
  | .idle => s
  | .stopped => s
  | .halting => s
  | .waitSlot => closeStopping e s
  | .fetching =>
    match s.px.role with
    | .fresh => closeStopping e s
    | .continuation => closeIfRest (setExecutor .halting (decideEnd e (normalRetract (withdrawTarget s))))
  | .active => closeIfRest (setExecutor .halting (decideEnd e (normalRetract (withdrawTarget s))))
  | .awaitHeadEnd => if stoppingDecided s then s else setExecutor .halting (decideEnd e s)

/-! ### The executor's turn at an expiry (R71, R81, log 3 and 5) -/

/-- R81: a PAUSE's count decreases by 1; at 0 the PAUSE decides COMPLETE and closes at once. -/
def pauseCounts (s : State) : State :=
  let s := s.withPx { s.px with pauseCount := s.px.pauseCount - 1 }
  if s.px.pauseCount = 0 then closeRecord (decideEnd ⟨.complete, none⟩ s) else s

/-- The executor finds rest while it waits, or ends a fetch in progress. -/
def executorCloses (s : State) : State :=
  if waitingForRest s then closeIfRest s
  else if s.px.state = .fetching then completeFetch s
  else s

/-- R71, R81: what the executor does when an interval expiry reaches it. -/
def executorTurn (s : State) : State :=
  if pausing s then pauseCounts s else executorCloses s

end Sys2Proof.Machine
end

