-- ==== Sys2Proof/Machine/PeerLine.lean ====
section
/-! DEFINITION. The Peer Line Interface: receiving and handing on (8.3), the transmit queue (8.4), and the commands
FRAME_START, FRAME_LEFT_LINE, FRAME_DISCARDED and OVERRIDE. -/

namespace Sys2Proof.Machine

/-- What a command of the model answers: every one has a next state. -/
abbrev Step := Host.Outcome State Fault Refusal

/-- The frame is a reply. -/
def OwnFrame.isReply : OwnFrame → Bool
  | .beacon _ => false
  | .reply _ => true

/-- R149, R150: the replies that hold a slot, one in transmission included. -/
def repliesHeld (s : State) : Nat :=
  s.pli.replies.length + (if s.pli.transmitting.any OwnFrame.isReply then 1 else 0)

/-- The queue holds as many replies as it can (R150). -/
def repliesFull (s : State) : Bool :=
  decide (Config.replyCapacity ≤ repliesHeld s)

/-- A reply is queued as the newest (R150). -/
def queueReply (r : Reply) (s : State) : State :=
  s.withPli { s.pli with replies := s.pli.replies ++ [r] }

/-- A reception completes; the receive buffer is free for the next (R148). -/
def receptionEnds (s : State) : State :=
  s.withPli { s.pli with reception := .none }

/-- R146 to R148: the frame the received bytes give to the owner of kind `k`; none where it is discarded, was under way
at power-up, or is of another kind (log 9). -/
def frameTaken (k : FrameKind) (bs : List Byte) (s : State) : Option ReceivedFrame :=
  if s.pli.reception = .notTaken then none
  else
    match parseFrame bs with
    | none => none
    | some f =>
      if filtered s.ownRank (repliesFull s) f then none
      else if FrameKind.ofCode f.kindCode = some k then some f
      else none

/-- A frame of kind `k` completes its reception and is handed to its owner (R148). -/
def onFrame (k : FrameKind) (bs : List Byte) (act : ReceivedFrame → State → State) (s : State) : State :=
  match frameTaken k bs s with
  | none => receptionEnds s
  | some f => settle (act f (receptionEnds s))

/-- R149: the frame at the head of the transmit queue. -/
def queueHead (s : State) : Option OwnFrame :=
  match s.pli.beacon, s.pli.replies with
  | some b, _ => some (.beacon b)
  | none, r :: _ => some (.reply r)
  | none, [] => none

/-- R144: the own field is not above any other on the line. -/
def winsStart (own : Nat) (rivals : List Byte) : Bool :=
  rivals.all (fun r => decide (own ≤ r.toNat))

/-- The head of the queue begins its transmission; it keeps its slot until it leaves (R145, R149). -/
def beginTransmission (f : OwnFrame) (s : State) : State :=
  match f with
  | .beacon _ =>
    s.withPli { s.pli with beacon := none, transmitting := some f, reception := .none, lineBytes := f.bytes s.ownRank }
  | .reply _ =>
    s.withPli { s.pli with replies := s.pli.replies.tail, transmitting := some f, reception := .none
                           lineBytes := f.bytes s.ownRank }

/-- R144: the line is idle and the stations with a frame begin it. With the own frame still on the line, it is not
idle and nothing begins. -/
def lineStarts (rivals : List Byte) (s : State) : State :=
  match s.pli.transmitting with
  | some _ => s
  | none =>
    match queueHead s with
    | none => s.withPli { s.pli with reception := if rivals.isEmpty then .none else .underWay }
    | some f =>
      if winsStart (f.arbitration s.ownRank) rivals then beginTransmission f s
      else s.withPli { s.pli with reception := .underWay }

/-- R145: the frame in transmission leaves; an own beacon restarts the period count and begins the hold-off. -/
def lineLeft (s : State) : State :=
  match s.pli.transmitting with
  | none => s
  | some (.beacon _) =>
    s.withPli { s.pli with transmitting := none, periodCount := 0, periodOverrun := false, holdOff := true }
  | some (.reply _) => s.withPli { s.pli with transmitting := none }

/-- R156, R74: the percentage is clamped and becomes the pending override. -/
def overrideTaken (f : ReceivedFrame) (s : State) : State :=
  let x := fieldAt f.payload 0 1
  let y := clampNat 50 120 x
  raiseIf (decide (y ≠ x)) .paramClamped (s.withPx { s.px with pendingOverride := some y })

/-- FRAME_START (R144). -/
def execFrameStart (rivals : List Byte) (s : State) : Step :=
  .next (lineStarts rivals s)

/-- FRAME_LEFT_LINE (R145). -/
def execFrameLeftLine (s : State) : Step :=
  .next (lineLeft s)

/-- FRAME_DISCARDED (R146, R147): no effect but that the reception is over. The bytes are not looked at: the command says
that the frame is one of those discarded. -/
def execFrameDiscarded (_frame : List Byte) (s : State) : Step :=
  .next (receptionEnds s)

/-- OVERRIDE (R156). -/
def execOverride (frame : List Byte) (s : State) : Step :=
  .next (onFrame .override frame overrideTaken s)

end Sys2Proof.Machine
end

