-- ==== Sys2Proof/Machine/Drive.lean ====
section
/-! DEFINITION. The Drive Port's commands: DEMAND_MESSAGE, FEEDBACK_RECEIVED, FEEDBACK_TAKEN and the rows that name one of
its outcomes, and the two level inputs (chapter 10, R103, R104, R112, R117, R118). -/

namespace Sys2Proof.Machine

/-! ### Demand (R172) -/

/-- R172: the demand message as assembled now. With the enable off it carries a spindle rpm of 0, and p and the Z command as
they stand: those of the latest feedback, but for what a record that runs has moved since (log 39). -/
def demandNow (s : State) : DemandMessage :=
  { position := s.tg.p.getD 0, zCommand := s.hs.zCommand
    spindle := if s.dp.enable then s.hs.spindle else 0
    enable := s.dp.enable }

/-! ### Feedback (R174 to R177) -/

/-- R175: the held values after a message; an out-of-range position leaves the held one. -/
def heldAfter (m : Feedback) (h : Option HeldFeedback) : HeldFeedback :=
  { position := if m.position ≤ Config.railTop then some m.position else h.bind HeldFeedback.position
    z := m.z, atSpeed := m.atSpeed, zClear := m.zClear, force := m.force, forceValid := m.forceValid }

/-- R174: the slot is emptied, the values are held, the feedback age is 0. -/
def holdFeedback (m : Feedback) (s : State) : State :=
  s.withDp { s.dp with slot := none, held := some (heldAfter m s.dp.held), age := 0 }

/-- R21: an in-range position sets p while the enable is off, and while p is unknown (log 24). -/
def followPosition (m : Feedback) (s : State) : State :=
  if m.position ≤ Config.railTop ∧ (s.dp.enable = false ∨ s.tg.p = none) then
    s.withTg { s.tg with p := some m.position }
  else s

/-- R100: while the enable is off the Z command follows the measured Z, clamped. -/
def followZ (m : Feedback) (s : State) : State :=
  if s.dp.enable then s else s.withHs { s.hs with zCommand := min m.z Config.depthTop }

/-- R106: a valid force value becomes the latest, with force age 0. -/
def takeForce (m : Feedback) (s : State) : State :=
  if m.forceValid then s.withHs { s.hs with force := m.force, forceAge := 0 } else s

/-- R177: a drive fault, reported once in a chain, of a message that found the station `found` RUNNING. -/
def driveFault (found s : State) : State :=
  if found.su.station = .running ∧ found.dp.driveReported = false ∧ s.dp.driveReported = false then
    faultCause .driveReported (s.withDp { s.dp with driveReported := true })
  else s

/-- R40: the following check fails. -/
def followingLost (m : Feedback) (s : State) : Bool :=
  s.su.station == .running && s.dp.enable && !s.tg.followReported
    && s.tg.p.any (fun p => decide (s.constants.followLimit < distance p m.position))

/-- R40, R175: the position's fault: FOLLOWING, or a drive fault where it is out of range. -/
def positionFault (m : Feedback) (found s : State) : State :=
  if Config.railTop < m.position then driveFault found s
  else if followingLost m found then faultCause .following (s.withTg { s.tg with followReported := true })
  else s

/-- R109: a value above the ceiling, valid and taken in a state that presses the tool; in RETRACTING none is compared, at the
expiry of a HOLD_EXPIRED either (R109, R121; log 37). -/
def overloads (m : Feedback) (s : State) : Bool :=
  m.forceValid && s.hs.state.pressing && decide (s.constants.forceCeiling < m.force)

/-- R109: OVERLOAD. -/
def overloadFault (m : Feedback) (found s : State) : State :=
  if overloads m found then headFault .overload s else s

/-- R177: the fault code's fault. -/
def codeFault (m : Feedback) (found s : State) : State :=
  if m.faultCode = 0 then s else driveFault found s

/-- The faults of one message, in the order of R174's fields, each judged in the state `found` in which the message is taken,
whatever its other fields have done since (R40, R109, R177; log 12). -/
def feedbackFaults (m : Feedback) (found s : State) : State :=
  codeFault m found (overloadFault m found (positionFault m found s))

/-- R103: the message ends the spin-up. -/
def spinUpEnds (m : Feedback) (s : State) : Bool :=
  s.hs.state == .spinningUp && m.atSpeed

/-- R104: the message completes the plunge of weld parameters `w`. With the enable off the Z command tested is the one that
has followed this message already (R100; the model's choice, log 38). -/
def plungeEnds (m : Feedback) (w : WeldParams) (s : State) : Bool :=
  s.hs.state == .plunging && decide (s.hs.zCommand = w.depth) && decide (w.depth ≤ m.z + Config.plungeSlack)

/-- R112: the message completes the retract. With the enable off the Z command tested is the one that has followed this
message already (R100; the model's choice, log 38). -/
def retractEnds (m : Feedback) (s : State) : Bool :=
  s.hs.state == .retracting && decide (s.hs.zCommand = 0) && m.zClear

/-- R103, R104, R112: the completion a message brings a head that is still in the state it was `found` in. On entering
PLUNGING the Z command stays as it is: 0 with the enable on (R104), the followed measured Z with it off (R100, log 35). The Z
command tested for a completion has followed the message already (log 38). -/
def feedbackCompletes (m : Feedback) (found s : State) : State :=
  if s.hs.state ≠ found.hs.state then s
  else if spinUpEnds m s then enterHead .plunging s
  else if retractEnds m s then headEnd (enterParked s)
  else
    match s.hs.weld with
    | some w => if plungeEnds m w s then plungeDone w s else s
    | none => s

/-- R174: the message's values are held and handed on: p, the Z command, the latest force value. -/
def handOn (m : Feedback) (s : State) : State :=
  takeForce m (followZ m (followPosition m (holdFeedback m s)))

/-- The completion of a message comes before its faults (log 12). With a LINE RESET pending the faults come first in any case:
the completion may end the chain and bring the reset into effect, and what is reported of a message taken in RUNNING (R40, R177)
is reported in the chain, before the values that the reset leaves (R45, R181). -/
def completesFirst (completionFirst : Bool) (s : State) : Bool :=
  completionFirst && !s.su.lineResetPending

/-- R174: the message in the slot is taken, every field in one event. Whether its faults or its completion come first is
open (log 12), but for a LINE RESET that the completion brings into effect, which comes last (R181). -/
def takeFeedback (completionFirst : Bool) (s : State) : State :=
  match s.dp.slot with
  | none => s
  | some m =>
    if completesFirst completionFirst s then feedbackFaults m s (feedbackCompletes m s (handOn m s))
    else feedbackCompletes m s (feedbackFaults m s (handOn m s))

/-- The message in the slot has this property. -/
def slotHas (f : Feedback → Bool) (s : State) : Bool :=
  s.dp.slot.any f

/-! ### The level inputs (R178, R179) -/

/-- R178: an assertion of the emergency-stop line. -/
def estopAsserted (s : State) : State :=
  let s := s.withDp { s.dp with estop := true, enable := false }
  let s := immediateStop s
  let s := if s.hs.state = .parked ∨ s.hs.state = .halted then s else enterHalted s
  heldResetEffect (estopCause s)

/-- R117: the clamp-made line goes false; in RETRACTING that is no fault, at the expiry of a HOLD_EXPIRED either (log 37). -/
def clampOpens (s : State) : State :=
  let s := s.withDp { s.dp with clamp := false }
  if s.hs.state.working then headFault .clampLost s else s

/-! ### Commands -/

/-- DEMAND_MESSAGE (R172). -/
def execDemandMessage (s : State) : Step :=
  .next (s.withDp { s.dp with demand := some (demandNow s), demandBytes := (demandNow s).bytes })

/-- FEEDBACK_RECEIVED (R174): a whole message replaces the slot's; one whose check fails is discarded. -/
def execFeedbackReceived (message : List Byte) (s : State) : Step :=
  .next (match parseFeedback message with
    | some m => s.withDp { s.dp with slot := some m }
    | none => s)

/-- FEEDBACK_TAKEN (R174). -/
def execFeedbackTaken (s : State) : Step :=
  .next (settle (takeFeedback false s))

/-- SPIN_UP_COMPLETE (R103): the taking that ends the spin-up; no effect where it would not (log 2). -/
def execSpinUpComplete (s : State) : Step :=
  .next (if slotHas (fun m => spinUpEnds m s) s then settle (takeFeedback true s) else s)

/-- PLUNGE_COMPLETE (R104): the taking that completes the plunge; no effect where it would not (log 2). With the enable off
its gate, as `feedbackCompletes`, tests the Z command after the message's own follow (the model's choice, log 38). -/
def execPlungeComplete (s : State) : Step :=
  .next (if slotHas (fun m => s.hs.weld.any (fun w => plungeEnds m w (followZ m s))) s then settle (takeFeedback true s) else s)

/-- RETRACT_COMPLETE (R112): the taking that completes the retract; no effect where it would not (log 2). With the enable off
its gate, as `feedbackCompletes`, tests the Z command after the message's own follow (the model's choice, log 38). -/
def execRetractComplete (s : State) : Step :=
  .next (if slotHas (fun m => retractEnds m (followZ m s)) s then settle (takeFeedback true s) else s)

/-- EMERGENCY_STOP_ASSERTED (R178): a change of the line; no effect where it is asserted already (log 25). -/
def execEmergencyStopAsserted (s : State) : Step :=
  .next (if s.dp.estop then s else settle (estopAsserted s))

/-- EMERGENCY_STOP_RELEASED (R178): only the held level changes. -/
def execEmergencyStopReleased (s : State) : Step :=
  .next (s.withDp { s.dp with estop := false })

/-- CLAMP_LINE_FALSE (R117): a change of the line; no effect where it is false already (log 25). -/
def execClampLineFalse (s : State) : Step :=
  .next (if s.dp.clamp then settle (clampOpens s) else s)

/-- CLAMP_LINE_TRUE (R179): only the held level changes. -/
def execClampLineTrue (s : State) : Step :=
  .next (s.withDp { s.dp with clamp := true })

end Sys2Proof.Machine
end

