-- ==== Sys2Proof/Machine/Head.lean ====
section
/-! DEFINITION. The Head Sequencer's commands at an expiry: HEAD_EXPIRY_WORK and the rows that name one of its outcomes,
SPIN_TIMEOUT, PLUNGE_TIMEOUT, DWELL_END, FORCE_LOST, RETRACT_TIMEOUT, PENDING_RETRACT_START (chapter 6). -/

namespace Sys2Proof.Machine

/-- R108: FORCE_LOST, where it is found. -/
def forceCheck (s : State) : State :=
  if forceLostFound s then headFault .forceLost s else s

/-- R103 to R105, R113: the timeouts and the dwell end. -/
def phaseCheck (s : State) : State :=
  match phaseTimeout s with
  | some d => headFault d s
  | none => if retractTimedOut s then retractTimesOut s else endDwell s

/-- R121: the Head Sequencer's work at an expiry, a single event: the counts, the ramps and force step, the force and phase
checks, a pending retract. Which check comes first is open (log 13). -/
def headExpiry (phaseFirst : Bool) (s : State) : State :=
  let s := headRamps (headCounts s)
  let s := if phaseFirst then forceCheck (phaseCheck s) else phaseCheck (forceCheck s)
  startPendingRetract s

/-- HEAD_EXPIRY_WORK (R121). -/
def execHeadExpiryWork (s : State) : Step :=
  .next (settle (headExpiry false s))

/-- SPIN_TIMEOUT (R103): the expiry at which the spin-up times out; no effect where it would not (log 2). -/
def execSpinTimeout (s : State) : Step :=
  .next (if phaseTimeout (headCounts s) = some .spinTimeout then settle (headExpiry true s) else s)

/-- PLUNGE_TIMEOUT (R104): the expiry at which the plunge times out; no effect where it would not (log 2). -/
def execPlungeTimeout (s : State) : Step :=
  .next (if phaseTimeout (headCounts s) = some .plungeTimeout then settle (headExpiry true s) else s)

/-- DWELL_END (R105): the expiry at which the dwell ends; no effect where it would not (log 2). -/
def execDwellEnd (s : State) : Step :=
  .next (if (dwellDone (headCounts s)).isSome then settle (headExpiry true s) else s)

/-- FORCE_LOST (R108): the expiry at which the force is found lost; no effect where it would not (log 2). -/
def execForceLost (s : State) : Step :=
  .next (if forceLostFound (headCounts s) then settle (headExpiry false s) else s)

/-- RETRACT_TIMEOUT (R113): the expiry at which the retract times out; no effect where it would not (log 2). -/
def execRetractTimeout (s : State) : Step :=
  .next (if retractTimedOut (headCounts s) then settle (headExpiry false s) else s)

/-- PENDING_RETRACT_START (R114): the expiry at which a pending normal retract finds v at 0; no effect where it would not
(log 2). -/
def execPendingRetractStart (s : State) : Step :=
  .next (if pendingRetractDue s then settle (headExpiry false s) else s)

end Sys2Proof.Machine
end

