-- ==== Sys2Proof/Machine/Intervals.lean ====
section
/-! DEFINITION. INTERVAL_CLOCK_EXPIRY and the work of the blocks that have no work row of their own: the Drive Port's
feedback age, the executor's turn, the Peer Line Interface's counts; and the rows that name one outcome of that work,
PAUSE_END, FEEDBACK_LOST, BEACON_PERIOD_DUE, HOLD_OFF_END (R160, R81, R153, R154, R176). -/

namespace Sys2Proof.Machine

/-- R176: the feedback age increases, and FEEDBACK_LOST is due. -/
def feedbackLostDue (s : State) : Bool :=
  s.su.station == .running && decide (Config.feedbackLostAge ≤ countUp s.dp.age) && !s.dp.lostReported

/-- R176: the Drive Port's work at an expiry. -/
def portWork (s : State) : State :=
  if feedbackLostDue s then
    faultCause .feedbackLost (s.withDp { s.dp with age := countUp s.dp.age, lostReported := true })
  else s.withDp { s.dp with age := countUp s.dp.age }

/-- R153: this expiry makes a beacon due by the period. -/
def periodReached (s : State) : Bool :=
  s.pli.periodOverrun || decide (s.pli.periodCount + 1 = s.constants.beaconPeriod)

/-- R153: the beacon period count at an expiry. -/
def periodWork (s : State) : State :=
  if periodReached s then
    beaconDue (s.withPli { s.pli with periodCount := s.constants.beaconPeriod, periodOverrun := false })
  else if s.pli.periodCount < s.constants.beaconPeriod then
    s.withPli { s.pli with periodCount := s.pli.periodCount + 1 }
  else s

/-- R154: the expiry ends the hold-off, and a change waiting makes a beacon due. -/
def holdOffWork (s : State) : State :=
  if s.pli.holdOff then
    let s := s.withPli { s.pli with holdOff := false }
    if s.pli.changeWaiting then beaconDue (s.withPli { s.pli with changeWaiting := false }) else s
  else s

/-- R153, R154: the Peer Line Interface's work at an expiry. -/
def lineWork (s : State) : State :=
  holdOffWork (periodWork s)

/-- R160: the three blocks' work, in the order the command gives. -/
def orderedWork (o : ExpiryOrder) (s : State) : State :=
  match o with
  | .portExecutorLine => lineWork (executorTurn (portWork s))
  | .portLineExecutor => executorTurn (lineWork (portWork s))
  | .executorPortLine => lineWork (portWork (executorTurn s))
  | .executorLinePort => portWork (lineWork (executorTurn s))
  | .linePortExecutor => executorTurn (portWork (lineWork s))
  | .lineExecutorPort => portWork (executorTurn (lineWork s))

/-- INTERVAL_CLOCK_EXPIRY (R160): the count increases by 1 and wraps, and the work of the three blocks is done. -/
def execIntervalClockExpiry (order : ExpiryOrder) (s : State) : Step :=
  .next (settle (orderedWork order { s with clock := s.clock + 1 }))

/-- PAUSE_END (R81): the executor's turn in which a PAUSE's count reaches 0; no effect where it would not (log 2). -/
def execPauseEnd (s : State) : Step :=
  .next (if pausing s && decide (s.px.pauseCount ≤ 1) then settle (pauseCounts s) else s)

/-- FEEDBACK_LOST (R176): the Drive Port's work in which it is reported; no effect where it would not be (log 2). -/
def execFeedbackLost (s : State) : Step :=
  .next (if feedbackLostDue s then settle (portWork s) else s)

/-- BEACON_PERIOD_DUE (R153): the period count's work in which a beacon is due; no effect where none would be (log 2). -/
def execBeaconPeriodDue (s : State) : Step :=
  .next (if periodReached s then settle (periodWork s) else s)

/-- HOLD_OFF_END (R154): the expiry that ends the hold-off; no effect where there is none (log 2). -/
def execHoldOffEnd (s : State) : Step :=
  .next (settle (holdOffWork s))

end Sys2Proof.Machine
end

