-- ==== Sys2Proof/Machine/Jobs.lean ====
section
/-! DEFINITION. The executor's commands: JOB_START, HALT, HELD_RECORD_START, RECORD_CLOSE (chapter 5). -/

namespace Sys2Proof.Machine

/-- R73: a JOB START that names the own rank at index `i` is refused. -/
def startRefused (i : Nat) (s : State) : Bool :=
  s.su.station != .idle || s.px.completionPending || s.hs.state != .parked || decide (511 < i)

/-- R173, R100: an accepted JOB START turns the drive demand enable on with the emergency-stop line released; the Z command
of a PARKED head is then 0. -/
def startEnable (s : State) : State :=
  if s.dp.estop then s
  else (s.withDp { s.dp with enable := true }).withHs { s.hs with zCommand := 0 }

/-- R40, R73, R181: what an accepted JOB START sets before its fetch. -/
def startChain (s : State) : State :=
  let s := setStation .running s
  let s := s.withPx { s.px with decided := none, secondary := none, firstRecord := true }
  let s := s.withTg { s.tg with followReported := false }
  let s := s.withDp { s.dp with lostReported := false, driveReported := false }
  startEnable s

/-- R73, R164: a JOB START is judged. -/
def jobStartTaken (f : ReceivedFrame) (s : State) : State :=
  match jobStartIndex s.ownRank f.payload with
  | none => s
  | some i => if startRefused i s then raise .startRefused s else beginFetch .fresh i (startChain s)

/-- R82: the record held in WAIT_SLOT starts. -/
def startHeld (s : State) : State :=
  match s.px.state, s.px.record with
  | .waitSlot, some r => startRecord r s
  | _, _ => s

/-- JOB_START (R73). -/
def execJobStart (frame : List Byte) (s : State) : Step :=
  .next (onFrame .jobStart frame jobStartTaken s)

/-- HALT (R93). -/
def execHalt (frame : List Byte) (s : State) : Step :=
  .next (onFrame .halt frame (fun _ => haltTaken) s)

/-- HELD_RECORD_START (R82): the room made in the Open Joint List reaches the executor. BEACON does the same in its own
event (R129, log 29). -/
def execHeldRecordStart (s : State) : Step :=
  .next (settle (startHeld s))

/-- RECORD_CLOSE (R89): the executor, waiting with a decided end, finds the carriage at rest and closes the record; a fetch
it has in progress runs to its end (log 5). -/
def execRecordClose (s : State) : Step :=
  .next (settle (executorCloses s))

end Sys2Proof.Machine
end

