-- ==== Sys2Proof/Machine/Joints.lean ====
section
/-! DEFINITION. The Joint Unit's commands: JOINT_UNIT_EXPIRY, COOLING_RUNS_OUT (R127, R133). -/

namespace Sys2Proof.Machine

/-- JOINT_UNIT_EXPIRY (R127). -/
def execJointUnitExpiry (s : State) : Step :=
  .next (settle (jointExpiry s))

/-- COOLING_RUNS_OUT (R133): the Joint Unit's expiry event in which the cool remaining reaches 0; no effect where it would
not (log 2). -/
def execCoolingRunsOut (s : State) : Step :=
  .next (if coolingEnds s then settle (jointExpiry s) else s)

end Sys2Proof.Machine
end

