-- ==== Sys2Proof/Machine/Loads.lean ====
section
/-! DEFINITION. PASS_LOAD and REGION_LOAD (R53, R67, R69). -/

namespace Sys2Proof.Machine

/-- R67: the result of a PASS LOAD, the first condition that applies. -/
def passLoadResult (st : StationState) (bs : List Byte) : Result :=
  if st = .running then .busy
  else if fieldAt bs 2 1 = 0 ∨ 4 < fieldAt bs 2 1 ∨ bs.length ≠ 3 + Config.recordBytes * fieldAt bs 2 1 then .format
  else if Config.recordCount < fieldAt bs 0 2 + fieldAt bs 2 1 then .range
  else .accepted

/-- R67, R69: a PASS LOAD is judged; an accepted one writes its records; the LOAD REPLY is queued. -/
def passLoadTaken (f : ReceivedFrame) (s : State) : State :=
  let bs := f.payload
  let r := passLoadResult s.su.station bs
  let s := if r = .accepted then s.withPm (writeBytes s.pm (Config.recordBytes * fieldAt bs 0 2) (bs.drop 3)) else s
  queueReply (.load f.sender (loadReplyPayload .passLoad r (fieldAt bs 0 2) (fieldAt bs 2 1))) s

/-- R53: a REGION LOAD is judged; an accepted one replaces its window; the LOAD REPLY is queued. -/
def regionLoadTaken (f : ReceivedFrame) (s : State) : State :=
  let bs := f.payload
  let r := regionLoadResult s.su.station bs
  let s := s.withRm (regionLoadWindows s.su.station bs s.rm)
  queueReply (.load f.sender (loadReplyPayload .regionLoad r (fieldAt bs 0 1) 0)) s

/-- PASS_LOAD (R67). -/
def execPassLoad (frame : List Byte) (s : State) : Step :=
  .next (onFrame .passLoad frame passLoadTaken s)

/-- REGION_LOAD (R53). -/
def execRegionLoad (frame : List Byte) (s : State) : Step :=
  .next (onFrame .regionLoad frame regionLoadTaken s)

end Sys2Proof.Machine
end

