-- ==== Sys2Proof/Machine/Neighbours.lean ====
section
/-! DEFINITION. The Neighbour Table's commands: NEIGHBOUR_TABLE_AGEING, ENTRY_GOES_SILENT, BEACON (chapter 1, R129,
R132). -/

namespace Sys2Proof.Machine

/-- R9, R10, R16: the table's event at an expiry: ageing, then the rank conflict check. -/
def ageingEvent (s : State) : State :=
  checkRankConflict (ageTable s)

/-- R129, R132: the Joint Unit is given a filed beacon's lists; room made starts a held record. -/
def jointsFiled (r : Rank) (c : BeaconContent) (s : State) : State :=
  let removes := s.ju.openList.any (removedBy r c.closedList)
  let s := setJoints (filingEvaluates r c.openList (removeJoints r c.closedList s.ju)) s
  if removes then startHeld s else s

/-- R6, R7, R14, R16: a well-formed beacon from another rank. -/
def neighbourBeacon (r : Rank) (c : BeaconContent) (s : State) : State :=
  let s := jointsFiled r c (fileBeacon r c s)
  if isAdjacent s r then checkRankConflict s else s

/-- R5 to R8: a beacon reaches the Neighbour Table. -/
def beaconTaken (f : ReceivedFrame) (s : State) : State :=
  let b := beaconFields f.payload
  let r : Rank := Fin.ofNat 8 f.sender
  if b.wellFormed then
    if r = s.ownRank then conflictStop .duplicateRank (raise .duplicateRank s) else neighbourBeacon r b.content s
  else s

/-- NEIGHBOUR_TABLE_AGEING (R9). -/
def execNeighbourTableAgeing (s : State) : Step :=
  .next (settle (ageingEvent s))

/-- ENTRY_GOES_SILENT (R10): the ageing in which the entry of `rank` goes SILENT; no effect where it would not (log 2). -/
def execEntryGoesSilent (rank : Rank) (s : State) : Step :=
  .next (if (entryOf s.nt rank).any (goesSilent s.constants.staleLimit) then settle (ageingEvent s) else s)

/-- BEACON (R6). -/
def execBeacon (frame : List Byte) (s : State) : Step :=
  .next (onFrame .beacon frame beaconTaken s)

end Sys2Proof.Machine
end

