-- ==== Sys2Proof/Machine/Station.lean ====
section
/-! DEFINITION. The station state's commands: POWER_UP, LINE_RESET, LINE_RESET_TAKES_EFFECT, SETUP, JOB_CLEAR
(chapter 9). -/

namespace Sys2Proof.Machine

/-- R162: the constants of a SETUP, each brought to the nearest limit of its range (9.3), the stale limit then raised to
three beacon periods. -/
def clampConstants (c : Constants) : Constants :=
  { spacing := clampNat 200000 4000000 c.spacing
    accel := clampNat 1 32 c.accel
    decel := clampNat 1 32 c.decel
    beaconPeriod := clampNat 2 64 c.beaconPeriod
    staleLimit := max (clampNat 8 1023 c.staleLimit) (3 * clampNat 2 64 c.beaconPeriod)
    railMin := clampNat 0 Config.railTop c.railMin
    railMax := clampNat 0 Config.railTop c.railMax
    stirLimit := clampNat 25 2500 c.stirLimit
    stallLimit := clampNat 250 65535 c.stallLimit
    followLimit := clampNat 200 20000 c.followLimit
    forceGain := clampNat 0 255 c.forceGain
    maxTrimStep := clampNat 1 64 c.maxTrimStep
    trimLimit := clampNat 0 2000 c.trimLimit
    forceCeiling := clampNat 500 4095 c.forceCeiling
    spinUpTimeout := clampNat 250 7500 c.spinUpTimeout
    plungeTimeout := clampNat 250 15000 c.plungeTimeout
    retractTimeout := clampNat 250 7500 c.retractTimeout
    retractRate := clampNat 5 255 c.retractRate }

/-- R161: the constants and the view of a SETUP come into force and the station enters IDLE. -/
def installSetup (mask : BitVec 8) (c : Constants) (s : State) : State :=
  let s := s.withConstants c
  let s := s.withNt { view := mask ||| ownView s.ownRank, entries := s.nt.entries.map (reclassEntry c.staleLimit) }
  let s := s.withPli { s.pli with periodOverrun := decide (c.beaconPeriod ≤ s.pli.periodCount) }
  setStation .idle s

/-- R161 to R163: a SETUP is judged. -/
def setupTaken (f : ReceivedFrame) (s : State) : State :=
  let c := setupConstants f.payload
  let c' := clampConstants c
  if s.su.station ≠ .unconfigured then raise .setupIgnored s
  else if c'.railMax ≤ c'.railMin then raise .setupIgnored s
  else installSetup (setupMask f.payload) c' (raiseIf (decide (c' ≠ c)) .paramClamped s)

/-- R166, R96: a JOB CLEAR acts by station state and head state. -/
def jobClearTaken (s : State) : State :=
  if s.su.station = .running ∨ s.dp.estop = true then raise .clearRefused s
  else
    let s := jobCleared s
    if s.su.station = .unconfigured then s
    else if s.hs.state = .halted then beginRetractFromHalted s
    else if s.su.station = .stopped ∧ s.hs.state = .parked then setStation .idle (setExecutor .idle s)
    else s

/-- R168, R169: a LINE RESET takes effect at once, is obeyed first as a HALT while RUNNING, or is held while a retract from
HALTED is under way. -/
def lineResetTaken (s : State) : State :=
  if s.su.station = .running then
    if s.su.lineResetPending then s
    else haltTaken (s.withSu { s.su with lineResetPending := true })
  else if retractFromHalted s then s.withSu { s.su with lineResetPending := true }
  else lineResetEffect s

/-- POWER_UP (R159). The queue of waiting commands is the model's, not the part's, and free values are not used twice. -/
def execPowerUp (lines : PowerUpLines) (s : State) : Step :=
  .next { powerUpState lines with freeCount := s.freeCount, pending := s.pending }

/-- LINE_RESET (R168, R169). -/
def execLineReset (frame : List Byte) (s : State) : Step :=
  .next (onFrame .lineReset frame (fun _ => lineResetTaken) s)

/-- LINE_RESET_TAKES_EFFECT (R167): the event in which a pending or immediate LINE RESET takes effect. It has no effect
while the reset must wait: a chain runs (R168) or a retract from HALTED is under way (R169) (log 29). -/
def execLineResetTakesEffect (s : State) : Step :=
  .next (if s.su.station = .running ∨ retractFromHalted s = true then s else settle (lineResetEffect s))

/-- SETUP (R161). -/
def execSetup (frame : List Byte) (s : State) : Step :=
  .next (onFrame .setup frame setupTaken s)

/-- JOB_CLEAR (R166). -/
def execJobClear (frame : List Byte) (s : State) : Step :=
  .next (onFrame .jobClear frame (fun _ => jobClearTaken) s)

end Sys2Proof.Machine
end

