-- ==== Sys2Proof/Machine/Status.lean ====
section
/-! DEFINITION. The status requests: the four sections and FORMAT (R184 to R187, 12.5). -/

namespace Sys2Proof.Machine

/-- One Neighbour Table entry of the STATION section: rank, liveness, age (R15). -/
def entryBytes (e : NeighbourEntry) : List Byte :=
  bytesOfNat 1 e.rank.val ++ bytesOfNat 1 e.liveness.code ++ bytesOfNat 2 e.age

/-- The four bytes of p: p, or a free value while it is unknown (R185, log 8). -/
def positionField (s : State) : Nat :=
  match s.tg.p with
  | some p => p
  | none => (Config.freePosition s.freeCount).toNat

/-- R185, 12.5: the STATION section. Bits 7 to 4 of the bits byte, which 12.5 neither names nor marks unused, are sent as 0 (the
model's choice, log 40). -/
def stationContent (s : State) : List Byte :=
  let d := descriptorAtP s
  bytesOfNat 1 s.ownRank.val ++ bytesOfNat 1 s.su.station.code ++ bytesOfNat 1 s.px.state.code
    ++ bytesOfNat 1 s.hs.state.code ++ bytesOfNat 1 s.su.resetCause.code ++ bytesOfNat 4 s.clock.toNat
    ++ [s.nt.view] ++ (s.nt.entries.map entryBytes).flatten ++ bytesOfNat 2 s.px.index
    ++ bytesOfNat 1 (bitNat s.tg.p.isSome + 2 * s.tg.dir.code + 4 * bitNat s.dp.estop + 8 * bitNat s.dp.clamp)
    ++ bytesOfNat 4 (positionField s) ++ bytesOfNat 2 s.tg.v
    ++ bytesOfNat 1 (if s.tg.p.isSome then d.window.getD 255 else 255)
    ++ bytesOfNat 1 (if s.tg.p.isSome then d.kind.code else 255)
    ++ bytesOfNat 1 s.px.overrideInForce ++ bytesOfNat 1 (s.px.pendingOverride.getD 0)
    ++ bytesOfNat 2 (unsigned16 s.hs.trim)

/-- R186, 12.5: the COMPLETION section. -/
def completionContent (s : State) : List Byte :=
  let c := s.px.completion
  bytesOfNat 2 c.index ++ bytesOfNat 1 (codeOr0 EndKind.code c.kind) ++ bytesOfNat 1 (codeOr0 Detail.code c.detail)
    ++ bytesOfNat 1 (codeOr0 Detail.code c.secondary) ++ bytesOfNat 4 c.position ++ bytesOfNat 4 c.remaining
    ++ bytesOfNat 1 (bitNat s.px.completionPending)

/-- R187, 12.5: the ATTENTION section. -/
def attentionContent (s : State) : List Byte :=
  bytesOfNat 2 s.su.flags.toNat ++ bytesOfNat 2 (s.su.notifyIndex.getD 65535)

/-- One Open Joint List entry of the JOINTS section. -/
def openJointBytes (e : OpenJoint) : List Byte :=
  bytesOfNat 1 e.id ++ bytesOfNat 1 e.partner.val ++ bytesOfNat 1 e.state.code ++ bytesOfNat 2 e.age ++ bytesOfNat 4 e.release

/-- The awaited joint of the JOINTS section. -/
def awaitedBytes : Option AwaitedJoint → List Byte
  | none => bytesOfNat 1 0
  | some a => bytesOfNat 1 1 ++ bytesOfNat 1 a.id ++ bytesOfNat 1 a.partner.val ++ bytesOfNat 4 a.entryX
      ++ bytesOfNat 4 a.hold ++ bytesOfNat 2 a.coolDwell ++ bytesOfNat 1 a.state.code ++ bytesOfNat 2 a.remaining

/-- R141, 12.5: the JOINTS section. -/
def jointsContent (s : State) : List Byte :=
  bytesOfNat 1 s.ju.openList.length ++ (s.ju.openList.map openJointBytes).flatten ++ awaitedBytes s.ju.awaited
    ++ bytesOfNat 1 s.ju.closedList.length ++ (s.ju.closedList.map (fun i => bytesOfNat 1 i)).flatten

/-- The clear option of a STATUS REQUEST (12.4). -/
def clearAsked (f : ReceivedFrame) : Bool :=
  bitOf (fieldAt f.payload 1 1) 0

/-- R184: the STATUS REPLY to `f`, queued as the newest. -/
def statusReply (f : ReceivedFrame) (r : Result) (content : List Byte) (s : State) : State :=
  queueReply (.status f.sender (bytesOfNat 1 (fieldAt f.payload 0 1) ++ bytesOfNat 1 r.code ++ content)) s

/-- The section a request names (R184). -/
def sectionNamed (f : ReceivedFrame) : Option Section :=
  Section.ofCode (fieldAt f.payload 0 1)

/-- R185. A free value read while p is unknown is not used again. -/
def stationRequest (f : ReceivedFrame) (s : State) : State :=
  if sectionNamed f = some .station then
    (statusReply f .accepted (stationContent s) s).withFree (if s.tg.p.isSome then s.freeCount else s.freeCount + 1)
  else s

/-- R186: assembled, then cleared, then queued. -/
def completionRequest (f : ReceivedFrame) (s : State) : State :=
  if sectionNamed f = some .completion then
    statusReply f .accepted (completionContent s) (if clearAsked f then setCompletionPending false s else s)
  else s

/-- R187. -/
def attentionRequest (f : ReceivedFrame) (s : State) : State :=
  if sectionNamed f = some .attention then
    statusReply f .accepted (attentionContent s) (if clearAsked f then clearFlags s else s)
  else s

/-- R184. -/
def jointsRequest (f : ReceivedFrame) (s : State) : State :=
  if sectionNamed f = some .joints then statusReply f .accepted (jointsContent s) s else s

/-- R184: no known section. -/
def formatRequest (f : ReceivedFrame) (s : State) : State :=
  if sectionNamed f = none then statusReply f .format [] s else s

/-- STATUS_REQUEST_STATION (R185). A request that names another section is another row's command: no effect (log 9). -/
def execStatusRequestStation (frame : List Byte) (s : State) : Step :=
  .next (onFrame .statusRequest frame stationRequest s)

/-- STATUS_REQUEST_COMPLETION (R186). -/
def execStatusRequestCompletion (frame : List Byte) (s : State) : Step :=
  .next (onFrame .statusRequest frame completionRequest s)

/-- STATUS_REQUEST_ATTENTION (R187). -/
def execStatusRequestAttention (frame : List Byte) (s : State) : Step :=
  .next (onFrame .statusRequest frame attentionRequest s)

/-- STATUS_REQUEST_JOINTS (R184). -/
def execStatusRequestJoints (frame : List Byte) (s : State) : Step :=
  .next (onFrame .statusRequest frame jointsRequest s)

/-- STATUS_REQUEST_FORMAT (R184). -/
def execStatusRequestFormat (frame : List Byte) (s : State) : Step :=
  .next (onFrame .statusRequest frame formatRequest s)

end Sys2Proof.Machine
end

