-- ==== Sys2Proof/Machine/Travel.lean ====
section
/-! DEFINITION. The Travel Governor's commands: TRAVEL_COMPUTATION, STALL, HOLD_EXPIRED (chapter 2, R84, R85, R110,
R111). -/

namespace Sys2Proof.Machine

/-- A report reaches the Head Sequencer and then the Pass Executor (R34 to R37, R84, R85, R110, R111). -/
def travelReported (r : TravelReport) (s : State) : State :=
  match r with
  | .none => s
  | .pathEnd => executorPathEnd (if s.tg.target.any (fun t => t.kind == .weld) then headPathEnd s else s)
  | .stall => executorShortEnd ⟨.short, some .stall⟩ s
  | .holdExpired => executorShortEnd ⟨.short, some .holdExpired⟩ (retractOnReport s)
  | .holdStop => executorShortEnd ⟨.voidAlt, none⟩ (retractOnReport s)

/-- R24: the Travel Governor's event at an expiry. -/
def travelEvent (s : State) : State :=
  match travelDue s with
  | none => s
  | some r => travelReported r.report (applyTravel r s)

/-- The computation made now would make this report. -/
def wouldReport (r : TravelReport) (s : State) : Bool :=
  (travelDue s).any (fun t => t.report == r)

/-- TRAVEL_COMPUTATION (R24). -/
def execTravelComputation (s : State) : Step :=
  .next (settle (travelEvent s))

/-- STALL (R35): the computation in which the stall counter reaches its limit; no effect where it would not (log 2). -/
def execStall (s : State) : Step :=
  .next (if wouldReport .stall s then settle (travelEvent s) else s)

/-- HOLD_EXPIRED (R36): the computation in which the stationary-stir counter reaches its limit; no effect where it would
not (log 2). -/
def execHoldExpired (s : State) : Step :=
  .next (if wouldReport .holdExpired s then settle (travelEvent s) else s)

end Sys2Proof.Machine
end

