-- ==== Sys2Proof/Machine/Dispatch.lean ====
section
/-! DEFINITION. The meaning of every command. -/

namespace Sys2Proof.Machine

def exec (i : Instr) (s : State) : Host.Outcome State Fault Refusal :=
  match i with
  | .powerUp lines => Sys2Proof.Machine.execPowerUp lines s
  | .intervalClockExpiry order => Sys2Proof.Machine.execIntervalClockExpiry order s
  | .neighbourTableAgeing => Sys2Proof.Machine.execNeighbourTableAgeing s
  | .entryGoesSilent rank => Sys2Proof.Machine.execEntryGoesSilent rank s
  | .travelComputation => Sys2Proof.Machine.execTravelComputation s
  | .stall => Sys2Proof.Machine.execStall s
  | .holdExpired => Sys2Proof.Machine.execHoldExpired s
  | .headExpiryWork => Sys2Proof.Machine.execHeadExpiryWork s
  | .spinTimeout => Sys2Proof.Machine.execSpinTimeout s
  | .plungeTimeout => Sys2Proof.Machine.execPlungeTimeout s
  | .dwellEnd => Sys2Proof.Machine.execDwellEnd s
  | .forceLost => Sys2Proof.Machine.execForceLost s
  | .retractTimeout => Sys2Proof.Machine.execRetractTimeout s
  | .pendingRetractStart => Sys2Proof.Machine.execPendingRetractStart s
  | .jointUnitExpiry => Sys2Proof.Machine.execJointUnitExpiry s
  | .coolingRunsOut => Sys2Proof.Machine.execCoolingRunsOut s
  | .pauseEnd => Sys2Proof.Machine.execPauseEnd s
  | .feedbackLost => Sys2Proof.Machine.execFeedbackLost s
  | .demandMessage => Sys2Proof.Machine.execDemandMessage s
  | .beaconPeriodDue => Sys2Proof.Machine.execBeaconPeriodDue s
  | .holdOffEnd => Sys2Proof.Machine.execHoldOffEnd s
  | .frameStart rivals => Sys2Proof.Machine.execFrameStart rivals s
  | .frameLeftLine => Sys2Proof.Machine.execFrameLeftLine s
  | .frameDiscarded frame => Sys2Proof.Machine.execFrameDiscarded frame s
  | .beacon frame => Sys2Proof.Machine.execBeacon frame s
  | .heldRecordStart => Sys2Proof.Machine.execHeldRecordStart s
  | .halt frame => Sys2Proof.Machine.execHalt frame s
  | .lineReset frame => Sys2Proof.Machine.execLineReset frame s
  | .lineResetTakesEffect => Sys2Proof.Machine.execLineResetTakesEffect s
  | .setup frame => Sys2Proof.Machine.execSetup frame s
  | .jobStart frame => Sys2Proof.Machine.execJobStart frame s
  | .jobClear frame => Sys2Proof.Machine.execJobClear frame s
  | .override frame => Sys2Proof.Machine.execOverride frame s
  | .passLoad frame => Sys2Proof.Machine.execPassLoad frame s
  | .regionLoad frame => Sys2Proof.Machine.execRegionLoad frame s
  | .statusRequestStation frame => Sys2Proof.Machine.execStatusRequestStation frame s
  | .statusRequestCompletion frame => Sys2Proof.Machine.execStatusRequestCompletion frame s
  | .statusRequestAttention frame => Sys2Proof.Machine.execStatusRequestAttention frame s
  | .statusRequestJoints frame => Sys2Proof.Machine.execStatusRequestJoints frame s
  | .statusRequestFormat frame => Sys2Proof.Machine.execStatusRequestFormat frame s
  | .feedbackReceived message => Sys2Proof.Machine.execFeedbackReceived message s
  | .feedbackTaken => Sys2Proof.Machine.execFeedbackTaken s
  | .spinUpComplete => Sys2Proof.Machine.execSpinUpComplete s
  | .plungeComplete => Sys2Proof.Machine.execPlungeComplete s
  | .retractComplete => Sys2Proof.Machine.execRetractComplete s
  | .recordClose => Sys2Proof.Machine.execRecordClose s
  | .emergencyStopAsserted => Sys2Proof.Machine.execEmergencyStopAsserted s
  | .emergencyStopReleased => Sys2Proof.Machine.execEmergencyStopReleased s
  | .clampLineFalse => Sys2Proof.Machine.execClampLineFalse s
  | .clampLineTrue => Sys2Proof.Machine.execClampLineTrue s

end Sys2Proof.Machine
end

