-- ==== Sys2Proof/Safety.lean ====
section
/-! DEFINITION. What a safe run keeps, and the terms statements use: which parts of the state a command leaves alone, when
a frame is taken, what is reported as a change, and the two invariants of the station. -/

namespace Sys2Proof.Machine

/-! ### Frames of statements: what is left alone -/

/-- The parts of the state. -/
inductive Part where
  | ownRank | clock | constants | nt | rm | tg | pm | px | hs | ju | dp | su | pli | freeCount | pending
  deriving DecidableEq, Repr

/-- The part is the same in `t` as in `s`. -/
def Part.same (s t : State) : Part → Prop
  | .ownRank => t.ownRank = s.ownRank
  | .clock => t.clock = s.clock
  | .constants => t.constants = s.constants
  | .nt => t.nt = s.nt
  | .rm => t.rm = s.rm
  | .tg => t.tg = s.tg
  | .pm => t.pm = s.pm
  | .px => t.px = s.px
  | .hs => t.hs = s.hs
  | .ju => t.ju = s.ju
  | .dp => t.dp = s.dp
  | .su => t.su = s.su
  | .pli => t.pli = s.pli
  | .freeCount => t.freeCount = s.freeCount
  | .pending => t.pending = s.pending

/-- Every part is the same in `t` as in `s`, but for those listed. -/
def Keeps (changed : List Part) (s t : State) : Prop :=
  ∀ x : Part, x ∉ changed → x.same s t

/-- All that a reported change can touch in the Peer Line Interface is the own beacon's slot and the change-waiting mark
(R154), with the model's own mark of log 10. -/
def LineKeeps (a b : PeerLine) : Prop :=
  { b with beacon := a.beacon, changeWaiting := a.changeWaiting, changeNoted := a.changeNoted } = a

/-- Every flag but those listed is as it was; the Status Unit's other items are as they were. -/
def FlagsKeep (changed : List AttentionFlag) (s t : State) : Prop :=
  (∀ f : AttentionFlag, f ∉ changed → t.flag f = s.flag f) ∧ { t.su with flags := s.su.flags } = s.su

/-! ### When a frame is taken -/

/-- A cell frame of kind `k` with these fields passes R146 and R147 in the state `s`. -/
def Taken (k : FrameKind) (sender dest : Nat) (payload : List Byte) (s : State) : Prop :=
  k.fromCell = true ∧ 8 ≤ sender ∧ sender ≤ 15
    ∧ (dest = s.ownRank.val ∨ (dest = 255 ∧ k.answered = false))
    ∧ (∀ n, k.fixedLength = some n → payload.length = n) ∧ payload.length ≤ Config.longestPayload
    ∧ s.pli.reception ≠ .notTaken ∧ (k.answered = true → repliesHeld s < Config.replyCapacity)

/-- The bytes of a beacon frame from a station of this rank. -/
def beaconFrame (sender : Rank) (dest : Byte) (payload : List Byte) : List Byte :=
  frameBytes FrameKind.beacon.cls sender.val dest.toNat FrameKind.beacon.code payload

/-- A beacon frame with this payload passes R146 and R147 in the state `s`. -/
def BeaconTaken (payload : List Byte) (s : State) : Prop :=
  payload.length ≤ Config.longestPayload ∧ s.pli.reception ≠ .notTaken

/-! ### What is reported as a change (R154) -/

/-- The items whose change is reported. -/
structure Reported where
  station : StationState
  executor : ExecutorState
  head : HeadState
  index : Nat
  joints : List (Nat × OpenJointState) × List Nat × Option (Nat × AwaitedState)
  summary : Bool
  completionPending : Bool
  deriving DecidableEq, Repr

/-- R154. -/
def reportedOf (s : State) : Reported :=
  { station := s.su.station, executor := s.px.state, head := s.hs.state, index := s.px.index, joints := s.ju.reported
    summary := decide (s.su.flags ≠ 0), completionPending := s.px.completionPending }

/-! ### Values after power-up -/

/-- What power-up gives every item but the pins and levels it reads and the Z command (R19, R45, R55, R70, R98, R123, R140,
R157, R159, R160, R181, R189). -/
structure PowerUpValues (s : State) : Prop where
  station : s.su = { station := .unconfigured, resetCause := .powerUp, lineResetPending := false, flags := 0, notifyIndex := none }
  clock : s.clock = 0
  constants : s.constants =
    { spacing := 1500000, accel := 4, decel := 4, beaconPeriod := 8, staleLimit := 48, railMin := 0, railMax := 33554431,
      stirLimit := 500, stallLimit := 7500, followLimit := 2000, forceGain := 32, maxTrimStep := 16, trimLimit := 500,
      forceCeiling := 3000, spinUpTimeout := 2500, plungeTimeout := 5000, retractTimeout := 2500, retractRate := 50 }
  view : ∀ r : Rank, inView s.nt.view r = decide (r = s.ownRank)
  entries : s.nt.entries.map (fun e => e.rank) = allRanks.filter (fun r => r ≠ s.ownRank)
    ∧ ∀ e ∈ s.nt.entries, e.liveness = .absent ∧ e.age = 0 ∧ e.content = none
  windows : s.rm.length = 8 ∧ ∀ w ∈ s.rm, w = { enable := false, base := 0, length := 1, kind := .solid, derate := 16, offset := 0 }
  travel : s.tg = { p := none, v := 0, dir := .up, target := none, phaseOpen := false, fence := none, stallCount := 0
                    stirCount := 0, lastEnd := none, followReported := false }
  memory : ∀ a, readByte s.pm a = 0
  executor : s.px.state = .idle ∧ s.px.index = 0 ∧ s.px.role = .fresh ∧ s.px.decided = none ∧ s.px.secondary = none
    ∧ s.px.firstRecord = false ∧ s.px.pauseCount = 0 ∧ s.px.overrideInForce = 100 ∧ s.px.pendingOverride = none
    ∧ s.px.completion = { index := 0, kind := none, detail := none, secondary := none, position := 0, remaining := 0 }
    ∧ s.px.completionPending = false
  head : s.hs.state = .parked ∧ s.hs.phase = 0 ∧ s.hs.spindle = 0 ∧ s.hs.trim = 0 ∧ s.hs.force = 0 ∧ s.hs.forceAge = 65535
    ∧ s.hs.weld = none ∧ s.hs.retractPending = false
  joints : s.ju = { openList := [], currentLead := none, awaited := none, closedList := [] }
  port : s.dp.enable = false ∧ s.dp.held = none ∧ s.dp.slot = none ∧ s.dp.age = 65535 ∧ s.dp.lostReported = false
    ∧ s.dp.driveReported = false
  line : s.pli.beacon = none ∧ s.pli.replies = [] ∧ s.pli.transmitting = none ∧ s.pli.periodCount = 0 ∧ s.pli.holdOff = false
    ∧ s.pli.changeWaiting = false

/-! ### Fence candidates (R25, R26, R28) -/

/-- R26: the drift bound of a neighbour that travels at `speed` in direction `reported`, seen by a carriage travelling in
direction `d`, `n` expiries after its beacon was filed. -/
def driftOf (accel : Nat) (d reported : Direction) (speed n : Nat) : Nat :=
  (if reported = d then 0 else speed) * n + accel * n * (n + 1) / 2

/-- The positions that bound a computation from `p`, before one behind the carriage is taken as p. -/
inductive Candidate (s : State) (p : Nat) : Int → Prop where
  | railUp : s.tg.dir = .up → Candidate s p s.constants.railMax
  | railDown : s.tg.dir = .down → Candidate s p s.constants.railMin
  | silent : neighbourView s s.tg.dir = .silent → Candidate s p p
  | liveUp (q : Nat) (dir : Direction) (speed n : Nat) : s.tg.dir = .up → neighbourView s .up = .live q dir speed n →
      Candidate s p ((q : Int) - s.constants.spacing - driftOf s.constants.accel .up dir speed n)
  | liveDown (q : Nat) (dir : Direction) (speed n : Nat) : s.tg.dir = .down → neighbourView s .down = .live q dir speed n →
      Candidate s p ((q : Int) + s.constants.spacing + driftOf s.constants.accel .down dir speed n)
  | lastEnd (x : Nat) : s.tg.lastEnd = some x → Candidate s p x
  | hold (a : AwaitedJoint) : s.ju.awaited = some a → a.state ≠ .clear → Candidate s p a.hold

/-! ### Malformed beacons (R5) -/

/-- Bytes 18 + 4 i on of a beacon's payload: joint id, state and ready age of the open joint `i`. -/
def openId (bs : List Byte) (i : Nat) : Nat := fieldAt bs (18 + 4 * i) 1

/-- The state code of the open joint `i`. -/
def openState (bs : List Byte) (i : Nat) : Nat := fieldAt bs (19 + 4 * i) 1

/-- The closed id `i`. -/
def closedId (bs : List Byte) (i : Nat) : Nat := fieldAt bs (18 + 4 * fieldAt bs 16 1 + i) 1

/-- R5: one of the ten things that make a beacon malformed (12.3). -/
inductive Malformed (bs : List Byte) : Prop where
  | stateField : 3 < fieldAt bs 0 2 ∨ 6 < fieldAt bs 2 2 ∨ 6 < fieldAt bs 4 2 → Malformed bs
  | position : fieldAt bs 6 2 % 2 = 1 → Config.railTop < fieldAt bs 8 4 → Malformed bs
  | speed : 2000 < fieldAt bs 12 2 → Malformed bs
  | index : 511 < fieldAt bs 14 2 → Malformed bs
  | counts : 4 < fieldAt bs 16 1 ∨ 4 < fieldAt bs 17 1 → Malformed bs
  | zeroOpen (i : Nat) : i < fieldAt bs 16 1 → openId bs i = 0 → Malformed bs
  | zeroClosed (i : Nat) : i < fieldAt bs 17 1 → closedId bs i = 0 → Malformed bs
  | sharedOpen (i j : Nat) : i < j → j < fieldAt bs 16 1 → openId bs i = openId bs j → Malformed bs
  | twiceClosed (i j : Nat) : i < j → j < fieldAt bs 17 1 → closedId bs i = closedId bs j → Malformed bs
  | openState (i : Nat) : i < fieldAt bs 16 1 → 2 < openState bs i → Malformed bs
  | length : bs.length ≠ 18 + 4 * fieldAt bs 16 1 + fieldAt bs 17 1 → Malformed bs

/-! ### The joint work of a record's close (R128, R135, R136) -/

/-- The open list after a record closes: the PENDING entry the current lead names is READY after COMPLETE, VOID after any
other end. -/
def openAfterClose (k : EndKind) (u : JointUnit) : List OpenJoint :=
  u.openList.map (fun e =>
    if u.currentLead = some e.id ∧ e.state = .pending then
      (if k = .complete then { e with state := .ready, age := 0 } else { e with state := .void })
    else e)

/-- The closed list after a record closes. -/
def closedAfterClose (u : JointUnit) : List Nat :=
  match u.awaited with
  | some a => pushClosed a.id u.closedList
  | none => u.closedList

/-- The Joint Unit after a record closes. -/
def afterClose (k : EndKind) (u : JointUnit) : JointUnit :=
  { openList := openAfterClose k u, currentLead := none, awaited := none, closedList := closedAfterClose u }

/-! ### What a chain's end leaves (R91, R92) -/

/-- The Pass Executor after a chain ends with `e` at `p`, its items of work cleared (log 33). -/
def executorAfter (x : ExecutorState) (e : Decision) (secondary : Option Detail) (p remaining : Nat) (s : State) :
    PassExecutor :=
  { s.px with
    state := x
    completion := { index := s.px.index, kind := some e.kind, detail := e.detail, secondary := secondary
                    position := p, remaining := remaining }
    completionPending := true, decided := none, secondary := none, firstRecord := false, record := none, passed := false
    leadPartner := none, trailPartner := none }

/-! ### What a retract leaves behind (R112, R115, R126) -/

/-- The tool has passed the release point of the entry of the current lead (R126). -/
def Passed (s : State) (e : OpenJoint) : Prop :=
  s.hs.state = .stirring ∧ s.ju.currentLead = some e.id ∧ e.state = .pending
    ∧ ∃ p, s.tg.p = some p ∧ (s.tg.dir = .up → e.release ≤ p) ∧ (s.tg.dir = .down → p ≤ e.release)

/-- R126: the Joint Unit after the head has left STIRRING in the state `s`: a passed PENDING lead is READY with ready age
0 and the current lead none; everything else is as it was. -/
structure LeftStirring (s : State) (u : JointUnit) : Prop where
  awaited : u.awaited = s.ju.awaited
  closedList : u.closedList = s.ju.closedList
  length : u.openList.length = s.ju.openList.length
  passed : ∀ (i : Nat) (e : OpenJoint), s.ju.openList[i]? = some e → Passed s e →
    u.openList[i]? = some { e with state := .ready, age := 0 }
  others : ∀ (i : Nat) (e : OpenJoint), s.ju.openList[i]? = some e → ¬ Passed s e → u.openList[i]? = some e
  released : (∃ e ∈ s.ju.openList, Passed s e) → u.currentLead = none
  kept : (¬ ∃ e ∈ s.ju.openList, Passed s e) → u.currentLead = s.ju.currentLead

/-- The head after it has entered RETRACTING (R112) by a fault retract (R115). -/
def faultHead (h : HeadSequencer) : HeadSequencer :=
  { h with state := .retracting, phase := 0, spindle := 0, trim := 0, retractPending := false }

/-- R86, R87: the executor's part, in ACTIVE, of a stopping cause that finds the carriage not at rest. -/
def executorAwaits (e : Decision) (s : State) : PassExecutor :=
  { s.px with state := .awaitHeadEnd, decided := some e }

/-- The Travel Governor after its target is withdrawn (R22, R38). -/
def withdrawn (g : TravelGovernor) : TravelGovernor :=
  { g with target := none, phaseOpen := false }

/-- A saturating 16-bit count, one on (00_scope, Quantities). -/
def oneOn (n : Nat) : Nat :=
  if n < 65535 then n + 1 else 65535

/-- R153: the beacon period count after an expiry that makes no beacon due: one on while it is below the period, where it
stays. -/
def periodOn (s : State) : Nat :=
  if s.pli.periodCount < s.constants.beaconPeriod then s.pli.periodCount + 1 else s.pli.periodCount

/-- `x` brought to the nearest limit of `lo` to `hi` (00_scope, Arithmetic). -/
def limited (lo hi x : Int) : Int :=
  if x < lo then lo else if hi < x then hi else x

/-- `x` brought to the nearest limit of `lo` to `hi`, for unsigned values. -/
def nearest (lo hi x : Nat) : Nat :=
  if x < lo then lo else if hi < x then hi else x

/-- The constants fit the bytes a SETUP carries them in (12.4). -/
def Constants.carried (c : Constants) : Prop :=
  c.spacing < 4294967296 ∧ c.accel < 256 ∧ c.decel < 256 ∧ c.beaconPeriod < 256 ∧ c.staleLimit < 65536
    ∧ c.railMin < 4294967296 ∧ c.railMax < 4294967296 ∧ c.stirLimit < 65536 ∧ c.stallLimit < 65536
    ∧ c.followLimit < 65536 ∧ c.forceGain < 256 ∧ c.maxTrimStep < 256 ∧ c.trimLimit < 65536 ∧ c.forceCeiling < 65536
    ∧ c.spinUpTimeout < 65536 ∧ c.plungeTimeout < 65536 ∧ c.retractTimeout < 65536 ∧ c.retractRate < 65536

/-- A feedback message whose force is no OVERLOAD: it is not marked valid, not above the ceiling, or taken in a head state in
which it is not compared (R109). -/
def ForceAccepted (m : Feedback) (s : State) : Prop :=
  s.hs.state = .plunging ∨ s.hs.state = .dwelling ∨ s.hs.state = .stirring → m.forceValid = true →
    m.force ≤ s.constants.forceCeiling

/-- R40: the message's position brings no FOLLOWING: within the following limit of p, or reported in the chain already. One out
of range is not compared (R175). -/
def FollowAccepted (m : Feedback) (s : State) : Prop :=
  m.position ≤ Config.railTop → s.tg.followReported = false →
    ∀ p, s.tg.p = some p → distance p m.position ≤ s.constants.followLimit

/-- R175, R177: the message brings no DRIVE_REPORTED: no fault code and a position in range, or reported in the chain
already. -/
def DriveAccepted (m : Feedback) (s : State) : Prop :=
  s.dp.driveReported = false → m.faultCode = 0 ∧ m.position ≤ Config.railTop

/-- A feedback message that is no fault: no drive fault code, a position in range and within the following limit of p, and
no OVERLOAD (R40, R109, R175, R177). -/
def FaultFree (m : Feedback) (s : State) : Prop :=
  m.faultCode = 0 ∧ m.position ≤ Config.railTop
    ∧ (∀ p, s.tg.p = some p → distance p m.position ≤ s.constants.followLimit) ∧ ForceAccepted m s

/-- The message ends no head phase: no at-speed in SPINNING_UP, no plunge at its depth in PLUNGING, no Z-clear with the Z
command at 0 in RETRACTING (R103, R104, R112). -/
def CompletesNothing (m : Feedback) (s : State) : Prop :=
  (s.hs.state = .spinningUp → m.atSpeed = false)
    ∧ (s.hs.state = .plunging → ∀ w, s.hs.weld = some w → s.hs.zCommand ≠ w.depth ∨ m.z + 20 < w.depth)
    ∧ (s.hs.state = .retracting → s.hs.zCommand ≠ 0 ∨ m.zClear = false)

/-- The head's items after a message's force is taken (R106). -/
def forceTaken (m : Feedback) (h : HeadSequencer) : HeadSequencer :=
  if m.forceValid then { h with force := m.force, forceAge := 0 } else h

/-- The Drive Port after a message is taken (R174, R175). -/
def feedbackHeld (m : Feedback) (d : DrivePort) : DrivePort :=
  { d with
    slot := none, age := 0
    held := some { position := if m.position ≤ Config.railTop then some m.position else d.held.bind (fun h => h.position)
                   z := m.z, atSpeed := m.atSpeed, zClear := m.zClear, force := m.force, forceValid := m.forceValid } }

/-! ### Fetches (R75 to R78) -/

/-- The Pass Executor once a fetch of index `i` has begun in a role that a next-record decision gives (R75, R89). -/
def fetchBegun (role : Role) (i : Nat) (s : State) : PassExecutor :=
  { s.px with
    state := .fetching, role := role, index := i, decided := none, firstRecord := false
    overrideInForce := s.px.pendingOverride.getD s.px.overrideInForce, pendingOverride := none
    record := some (readRecord s.pm i), passed := false, leadPartner := none, trailPartner := none }

/-- NOTIFY acted on for record `r` at index `i` (R75, R183); the other flags but those listed, and the Status Unit's other
items, are as they were. -/
def Notified (r : PassRecord) (i : Nat) (changed : List AttentionFlag) (s t : State) : Prop :=
  t.flag .notify = (s.flag .notify || r.notify)
    ∧ t.su = { s.su with flags := t.su.flags, notifyIndex := if r.notify then some i else s.su.notifyIndex }
    ∧ ∀ f : AttentionFlag, f ≠ .notify → f ∉ changed → t.flag f = s.flag f

/-- R75, R76, R89: what a fresh fetch of index `i` after a record's close at `p` does to executor and Status Unit; an index of
512 or more fails with INDEX_RANGE, the active index staying as it was. -/
def NextFetched (i p : Nat) (s t : State) : Prop :=
  (i ≤ 511 → t.px = fetchBegun .fresh i s ∧ Notified (readRecord s.pm i) i [.jointVoided] s t)
    ∧ (512 ≤ i → t.su.station = .stopped ∧ t.flag .programCheck = true
        ∧ t.px = { executorAfter .stopped ⟨.programCheck, some .indexRange⟩ s.px.secondary p 0 s with role := .fresh })

/-- The record that does the work of the fetch in progress, with its index: the record in hand, or the target of a BRANCH
that is not the chain's first record (R76). -/
def WorksFrom (s : State) (r : PassRecord) (i : Nat) : Prop :=
  (s.px.record = some r ∧ r.kind ≠ some .branch ∧ i = s.px.index)
    ∨ (s.px.firstRecord = false ∧ (∃ b, s.px.record = some b ∧ b.kind = some .branch ∧ b.rate = i) ∧ i ≤ 511
        ∧ r = readRecord s.pm i)

/-- A BRANCH is in hand. -/
def Branches (s : State) : Prop :=
  ∃ b, s.px.record = some b ∧ b.kind = some .branch

/-- `x` lies ahead of `a` in direction `d`. -/
def Ahead (d : Direction) (a x : Nat) : Prop :=
  (d = .up → a < x) ∧ (d = .down → x < a)

/-- R22: the direction from `a` to `b`, the direction held where they are equal. -/
def towards (a b : Nat) (held : Direction) : Direction :=
  if a < b then .up else if b < a then .down else held

/-- The direction of a WELD (R78). -/
def weldHeading (s : State) (r : PassRecord) : Direction :=
  if s.px.role = .fresh then towards r.start r.endPos s.tg.dir else s.tg.dir

/-- Where a WELD begins: its start, or p for a continuation (R58). -/
def weldFrom (s : State) (r : PassRecord) (p : Nat) : Nat :=
  if s.px.role = .fresh then r.start else p

/-- Every field read for the kind and role lies in its range (R58 to R62, R64, R65). -/
def FieldsInRange (role : Role) (k : RecordKind) (r : PassRecord) : Prop :=
  match k with
  | .weld => r.endPos ≤ 33554431 ∧ 1 ≤ r.rate ∧ r.rate ≤ 400 ∧ 200 ≤ r.rpm ∧ r.rpm ≤ 3000 ∧ 100 ≤ r.setpoint
      ∧ r.setpoint ≤ 4095
      ∧ (r.leadId ≠ 0 → r.leadId ≤ 255 ∧ 1 ≤ r.release ∧ r.release ≤ 33554431)
      ∧ (r.trailId ≠ 0 → r.trailId ≤ 255 ∧ r.entryX ≤ 33554431 ∧ r.standoff ≤ 33554431 ∧ r.coolDwell ≤ 65535)
      ∧ (role = .fresh → r.start ≤ 33554431 ∧ 500 ≤ r.plungeDepth ∧ r.plungeDepth ≤ 12000 ∧ 1 ≤ r.plungeRate
          ∧ r.plungeRate ≤ 255 ∧ r.plungeDwell ≤ 2500)
  | .dry => r.start ≤ 33554431 ∧ r.endPos ≤ 33554431 ∧ 1 ≤ r.rate ∧ r.rate ≤ 400
  | .move => r.endPos ≤ 33554431 ∧ 1 ≤ r.rate ∧ r.rate ≤ 2000
  | .pause => 1 ≤ r.rate ∧ r.rate ≤ 65535
  | .branch => r.rate ≤ 511

/-- R77, R78: the check with this detail fails for record `r` of kind `k`. -/
def Fails (s : State) (k : RecordKind) (r : PassRecord) : Detail → Prop
  | .continueKind => s.px.role = .continuation ∧ k ≠ .weld
  | .fieldRange => ¬ FieldsInRange s.px.role k r
  | .startMismatch => (s.tg.p = none ∧ (k = .weld ∨ k = .dry ∨ k = .move))
      ∨ ∃ p, s.tg.p = some p ∧ s.px.role = .fresh ∧ (k = .weld ∨ k = .dry) ∧ r.start ≠ p
  | .zeroLength => ∃ p, s.tg.p = some p ∧
      (s.px.role = .fresh ∧ (k = .weld ∨ k = .dry) ∧ r.endPos = r.start
        ∨ s.px.role = .continuation ∧ k = .weld ∧ r.endPos = p)
  | .direction => ∃ p, s.tg.p = some p ∧ s.px.role = .continuation ∧ k = .weld ∧ ¬ Ahead s.tg.dir p r.endPos
  | .railRange => (k = .weld ∨ k = .dry ∨ k = .move) ∧ (r.endPos < s.constants.railMin ∨ s.constants.railMax < r.endPos)
  | .pathOpen => ∃ p, s.tg.p = some p ∧ k = .weld
      ∧ ∃ x, min (weldFrom s r p) r.endPos ≤ x ∧ x ≤ max (weldFrom s r p) r.endPos ∧ (decodeRegion s.rm x).kind = .opening
  | .jointGeometry => ∃ p, s.tg.p = some p ∧ k = .weld ∧
      (r.leadId ≠ 0 ∧ (s.px.role = .continuation ∨ distance r.endPos r.start < r.release)
        ∨ r.trailId ≠ 0 ∧ ¬ (Ahead (weldHeading s r) (weldFrom s r p) r.entryX ∧ Ahead (weldHeading s r) r.entryX r.endPos)
        ∨ r.trailId ≠ 0 ∧ weldHeading s r = .up ∧ r.entryX < weldFrom s r p + r.standoff
        ∨ r.trailId ≠ 0 ∧ weldHeading s r = .down ∧ weldFrom s r p < r.entryX + r.standoff)
  | .jointPartner => k = .weld ∧
      (r.leadId ≠ 0 ∧ rankBehind s (weldHeading s r) = none ∨ r.trailId ≠ 0 ∧ rankAhead s (weldHeading s r) = none)
  | .jointDuplicate => k = .weld ∧ r.leadId ≠ 0 ∧ r.leadId ∈ s.ju.openList.map (fun e => e.id)
  | .jointReused => k = .weld ∧
      (r.leadId ≠ 0 ∧ (∃ q, rankBehind s (weldHeading s r) = some q ∧ r.leadId ∈ filedClosed s q)
        ∨ r.trailId ≠ 0 ∧ r.trailId ∈ s.ju.closedList)
  | _ => False

/-- The order of the checks (R77, R78). -/
def checkOrder : List Detail :=
  [.continueKind, .fieldRange, .startMismatch, .zeroLength, .direction, .railRange, .pathOpen, .jointGeometry, .jointPartner,
    .jointDuplicate, .jointReused]

/-- `d` is the first of the listed checks that fails. -/
def FirstFailing (fails : Detail → Prop) : List Detail → Detail → Prop
  | [], _ => False
  | x :: rest, d => (fails x ∧ d = x) ∨ (¬ fails x ∧ FirstFailing fails rest d)

/-- Record `r`, judged as the record that does the work, fails with detail `d`: INVALID_KIND, or the first check that fails
(R76, R77). -/
def FailsWith (s : State) (r : PassRecord) (d : Detail) : Prop :=
  ((r.kindCode = 0 ∨ 5 < r.kindCode) ∧ d = .invalidKind)
    ∨ ∃ k, r.kind = some k ∧ k ≠ .branch ∧ FirstFailing (Fails s k r) checkOrder d

/-- Record `r` of kind `k` passes every check. -/
def Passes (s : State) (k : RecordKind) (r : PassRecord) : Prop :=
  ∀ d ∈ checkOrder, ¬ Fails s k r d

/-! ### Record starts (R22, R81, R101, R102, R125, R131) -/

/-- The Travel Governor with a motion target given (R22). -/
def targetGiven (k : TravelKind) (r : PassRecord) (d : Direction) (opens : Bool) (g : TravelGovernor) : TravelGovernor :=
  { g with target := some ⟨k, r.endPos, r.rate⟩, phaseOpen := opens, stallCount := 0, lastEnd := some r.endPos, dir := d }

/-- The head once it has taken a weld request for `r` (R101). -/
def headBegun (r : PassRecord) (h : HeadSequencer) : HeadSequencer :=
  { h with
    state := .spinningUp, phase := 0, spindle := r.rpm, zCommand := 0
    weld := some { rpm := r.rpm, depth := r.plungeDepth, plungeRate := r.plungeRate, dwell := r.plungeDwell
                   setpoint := r.setpoint, cont := r.cont } }

/-- The Open Joint List entry a lead record in direction `d` creates (R125). -/
def leadEntry (r : PassRecord) (q : Rank) (d : Direction) : OpenJoint :=
  { id := r.leadId, partner := q, state := .pending, age := 0
    release := if d = .up then r.start + r.release else r.start - r.release }

/-- The awaited joint a trail record in direction `d` creates, before its evaluation (R131). -/
def trailJoint (r : PassRecord) (q : Rank) (d : Direction) : AwaitedJoint :=
  { id := r.trailId, partner := q, entryX := r.entryX
    hold := if d = .up then r.entryX - r.standoff else r.entryX + r.standoff
    coolDwell := r.coolDwell, state := .waiting, remaining := 0 }

/-- R132: the awaited joint `b` is `a` evaluated against a partner's Open Joint List. -/
def Evaluated (reports : List JointReport) (a b : AwaitedJoint) : Prop :=
  (a.state = .clear ∨ a.state = .void → b = a)
    ∧ (reports.find? (fun x => x.id == a.id) = none → b = a)
    ∧ ∀ x, reports.find? (fun x => x.id == a.id) = some x → a.state = .waiting ∨ a.state = .cooling →
      (x.state = .pending → b = a)
      ∧ (x.state = .ready → a.coolDwell ≤ x.age → b = { a with state := .clear, remaining := 0 })
      ∧ (x.state = .ready → x.age < a.coolDwell → b = { a with state := .cooling, remaining := a.coolDwell - x.age })
      ∧ (x.state = .void → a.state = .waiting → b = { a with state := .void })
      ∧ (x.state = .void → a.state = .cooling → b = a)

/-- R131: the trail part of `r` is awaited with partner `q`; with no trail part the awaited joint is as it was. -/
def Awaits (r : PassRecord) (q : Option Rank) (d : Direction) (s : State) (a : Option AwaitedJoint) : Prop :=
  (r.trailId = 0 → a = s.ju.awaited)
    ∧ (r.trailId ≠ 0 → ∀ x, q = some x → ∃ b, a = some b ∧ Evaluated (filedOpen s x) (trailJoint r x d) b)

/-- The executor as record `r` of kind `k` at index `i` passes its fetch (R78, R82, R125). -/
def recordPassed (x : ExecutorState) (k : RecordKind) (r : PassRecord) (i : Nat) (s : State) : PassExecutor :=
  { s.px with
    state := x, index := i, firstRecord := false, record := some r, passed := true
    leadPartner := if k = .weld ∧ r.leadId ≠ 0 then rankBehind s (weldHeading s r) else none
    trailPartner := if k = .weld ∧ r.trailId ≠ 0 then rankAhead s (weldHeading s r) else none }

/-! ### Stopping causes (R80, R82, R86, R87, R90) -/

/-- COMPLETE, SHORT and VOID_ALT, the ends that are no stopping cause (R83). -/
def NormalEnd (e : Decision) : Prop :=
  e.kind = .complete ∨ e.kind = .short ∨ e.kind = .voidAlt

/-- What a stopping cause with end `e` and secondary code `d` does in a chain under way in `s`, where the cause's own action
has left the Travel Governor `g` and the head `h`. In WAIT_SLOT, in a fresh fetch and under a record at rest with the head
PARKED the chain ends at once. Otherwise a working head makes a fault retract and the end is awaited; a normal end that waits
is replaced; and with a stopping cause decided, or in HALTING, the code is filed as the secondary fault if that was empty. A
fetch of a BRANCH is met at the BRANCH's index (the model's choice, log 5). -/
def CauseActs (e : Decision) (d : Detail) (g : TravelGovernor) (h : HeadSequencer) (flags : List AttentionFlag) (s t : State) :
    Prop :=
  t.tg = withdrawn g
    ∧ (h.state = .parked →
        s.px.state = .waitSlot ∨ (s.px.state = .fetching ∧ s.px.role = .fresh) ∨ (s.px.state = .active ∧ g.v = 0) →
        t.hs = h ∧ t.su.station = .stopped ∧ t.ju = afterClose e.kind s.ju
        ∧ (∀ f : AttentionFlag, f ∉ flags → f ≠ .jointVoided → t.flag f = s.flag f)
        ∧ ∃ x y, (∀ p, s.tg.p = some p → x = p) ∧ t.px = executorAfter .stopped e s.px.secondary x y s)
    ∧ (((s.px.state = .active ∨ (s.px.state = .fetching ∧ s.px.role = .continuation))
            ∧ (0 < g.v ∨ h.state ≠ .parked)) ∨ s.px.state = .awaitHeadEnd ∨ s.px.state = .halting →
        t.freeCount = s.freeCount ∧ FlagsKeep flags s t ∧ LeftStirring s t.ju
        ∧ (h.state.working = true → t.hs = faultHead h) ∧ (h.state.working = false → t.hs = h)
        ∧ (s.px.state = .active ∨ s.px.state = .fetching → t.px = executorAwaits e s)
        ∧ (∀ x, s.px.decided = some x → s.px.state = .awaitHeadEnd → NormalEnd x → t.px = executorAwaits e s)
        ∧ (∀ x, s.px.decided = some x → s.px.state = .awaitHeadEnd → ¬ NormalEnd x →
            t.px = { s.px with secondary := some (s.px.secondary.getD d) })
        ∧ (s.px.state = .halting → t.px = { s.px with secondary := some (s.px.secondary.getD d) }))

/-- R17, R87: what a rank conflict with detail `d` does in `s` beyond its flag and the parts listed. Outside RUNNING nothing.
In RUNNING v is 0 at once, and the cause reaches a chain under way; with RANK_CONFLICT decided already nothing more
(log 18). -/
def ConflictActs (d : Detail) (parts : List Part) (flags : List AttentionFlag) (line : PeerLine) (s t : State) : Prop :=
  LineKeeps line t.pli
    ∧ (s.su.station ≠ .running → Keeps (parts ++ [.su, .pli]) s t ∧ FlagsKeep flags s t)
    ∧ (s.su.station = .running → (∃ x, s.px.decided = some x ∧ x.kind = .rankConflict) →
        Keeps (parts ++ [.tg, .su, .pli]) s t ∧ FlagsKeep flags s t ∧ t.tg = { s.tg with v := 0, phaseOpen := false })
    ∧ (s.su.station = .running → (∀ x, s.px.decided = some x → x.kind ≠ .rankConflict) → s.px.state ≠ .idle →
        s.px.state ≠ .stopped →
        Keeps (parts ++ [.tg, .px, .hs, .ju, .su, .freeCount, .pli]) s t
        ∧ CauseActs ⟨.rankConflict, some d⟩ d { s.tg with v := 0 } s.hs flags s t)

/-! ### Rank conflicts (R16) -/

/-- The rank's entry is LIVE with this position. -/
def LiveAt (s : State) (r : Rank) (q : Nat) : Prop :=
  ∃ e c, entryOf s.nt r = some e ∧ e.liveness = .live ∧ e.content = some c ∧ c.position = some q

/-- R16: an adjacent neighbour stands on the wrong side of `p`. -/
def Conflict (s : State) (p : Nat) : Prop :=
  (∃ r q, lowerNeighbour s.ownRank s.nt.view = some r ∧ LiveAt s r q ∧ p ≤ q)
    ∨ ∃ r q, upperNeighbour s.ownRank s.nt.view = some r ∧ LiveAt s r q ∧ q ≤ p

/-! ### The receive filters (R147) -/

/-- R147: one of the nine filters discards the frame in the state `s`. -/
inductive Discarded (f : ReceivedFrame) (s : State) : Prop where
  | sender : 15 < f.sender → Discarded f s
  | unknown : (∀ k : FrameKind, k.code ≠ f.kindCode) → Discarded f s
  | reply : f.kindCode = 48 ∨ f.kindCode = 49 → Discarded f s
  | beaconSender : f.kindCode = 16 → 8 ≤ f.sender → Discarded f s
  | cellSender (k : FrameKind) : f.kindCode = k.code → k.fromCell = true → f.sender < 8 → Discarded f s
  | destination : f.kindCode ≠ 16 → f.dest ≠ s.ownRank.val → f.dest ≠ 255 → Discarded f s
  | toAll (k : FrameKind) : f.kindCode = k.code → k.answered = true → f.dest = 255 → Discarded f s
  | length (k : FrameKind) (n : Nat) : f.kindCode = k.code → k.fixedLength = some n → f.payload.length ≠ n → Discarded f s
  | noRoom (k : FrameKind) : f.kindCode = k.code → k.answered = true → 3 ≤ repliesHeld s → Discarded f s

/-- The commands that bring a received frame. -/
def frameCommands : List (List Byte → Instr) :=
  [.beacon, .halt, .lineReset, .setup, .jobStart, .jobClear, .override, .passLoad, .regionLoad, .statusRequestStation,
    .statusRequestCompletion, .statusRequestAttention, .statusRequestJoints, .statusRequestFormat]

/-! ### A halt that takes time (R93) -/

/-- R93, R94, R114: a HALT that finds the carriage moving or the head at work: HALTING with HALTED decided, the target withdrawn;
a head STIRRING with v above 0 keeps stirring with the retract pending, any other working head goes RETRACTING. -/
def HaltSlows (s t : State) : Prop :=
  t.tg = withdrawn s.tg ∧ t.px = { s.px with state := .halting, decided := some ⟨.halted, none⟩ }
    ∧ (s.hs.state = .stirring → 0 < s.tg.v → t.hs = { s.hs with retractPending := true } ∧ t.ju = s.ju)
    ∧ (s.hs.state.working = true → s.hs.state ≠ .stirring ∨ s.tg.v = 0 → LeftStirring s t.ju
        ∧ t.hs = { s.hs with state := .retracting, phase := 0, spindle := 0, trim := 0 })
    ∧ (s.hs.state.working = false → t.hs = s.hs ∧ t.ju = s.ju)

/-! ### A LINE RESET that takes effect (R167) -/

/-- What a LINE RESET that takes effect leaves of the state `s` (R19, R45, R98, R123, R140, R157, R167, R181, R189). -/
structure LineResetValues (s t : State) : Prop where
  kept : Keeps [.constants, .nt, .tg, .px, .hs, .ju, .dp, .su, .freeCount, .pli] s t
  constants : t.constants =
    { spacing := 1500000, accel := 4, decel := 4, beaconPeriod := 8, staleLimit := 48, railMin := 0, railMax := 33554431,
      stirLimit := 500, stallLimit := 7500, followLimit := 2000, forceGain := 32, maxTrimStep := 16, trimLimit := 500,
      forceCeiling := 3000, spinUpTimeout := 2500, plungeTimeout := 5000, retractTimeout := 2500, retractRate := 50 }
  view : ∀ r : Rank, inView t.nt.view r = decide (r = s.ownRank)
  entries : t.nt.entries.map (fun e => e.rank) = allRanks.filter (fun r => r ≠ s.ownRank)
    ∧ ∀ e ∈ t.nt.entries, e.liveness = .absent ∧ e.age = 0 ∧ e.content = none
  travel : t.tg = { p := s.tg.p, v := 0, dir := .up, target := none, phaseOpen := false, fence := none, stallCount := 0
                    stirCount := 0, lastEnd := none, followReported := false }
  executor : t.px.state = .idle ∧ t.px.index = 0 ∧ t.px.role = .fresh ∧ t.px.decided = none ∧ t.px.secondary = none
    ∧ t.px.firstRecord = false ∧ t.px.pauseCount = 0 ∧ t.px.overrideInForce = 100 ∧ t.px.pendingOverride = none
    ∧ t.px.completion = { index := 0, kind := none, detail := none, secondary := none, position := 0, remaining := 0 }
    ∧ t.px.completionPending = false
  head : ∃ h : HeadSequencer, h.state = s.hs.state ∧ h.zCommand = s.hs.zCommand ∧ h.force = s.hs.force
    ∧ h.forceAge = s.hs.forceAge
    ∧ t.hs = { h with phase := 0, spindle := 0, trim := 0, weld := none, retractPending := false }
  joints : t.ju = { openList := [], currentLead := none, awaited := none, closedList := [] }
  port : t.dp = { s.dp with enable := false, lostReported := false, driveReported := false }
  station : t.su = { station := .unconfigured, resetCause := .lineReset, lineResetPending := false, flags := 0, notifyIndex := none }
  queue : t.pli.replies = [] ∧ t.pli.transmitting = s.pli.transmitting ∧ t.pli.periodCount = 0 ∧ t.pli.holdOff = false
  /-- R157: the beacon that carries UNCONFIGURED is due at once, or at the end of the hold-off. -/
  told : if sendingBeacon s then t.pli.beacon = none ∧ t.pli.changeWaiting = true
    else t.pli.beacon = some (assembleBeacon t) ∧ t.pli.changeWaiting = false

/-! ### The range invariant -/

/-- The ranges of 9.3. -/
def Constants.inRange (c : Constants) : Prop :=
  (200000 ≤ c.spacing ∧ c.spacing ≤ 4000000) ∧ (1 ≤ c.accel ∧ c.accel ≤ 32) ∧ (1 ≤ c.decel ∧ c.decel ≤ 32)
    ∧ (2 ≤ c.beaconPeriod ∧ c.beaconPeriod ≤ 64) ∧ (8 ≤ c.staleLimit ∧ c.staleLimit ≤ 1023)
    ∧ 3 * c.beaconPeriod ≤ c.staleLimit ∧ c.railMin < c.railMax ∧ c.railMax ≤ Config.railTop
    ∧ (25 ≤ c.stirLimit ∧ c.stirLimit ≤ 2500) ∧ (250 ≤ c.stallLimit ∧ c.stallLimit ≤ 65535)
    ∧ (200 ≤ c.followLimit ∧ c.followLimit ≤ 20000) ∧ c.forceGain ≤ 255 ∧ (1 ≤ c.maxTrimStep ∧ c.maxTrimStep ≤ 64)
    ∧ c.trimLimit ≤ 2000 ∧ (500 ≤ c.forceCeiling ∧ c.forceCeiling ≤ 4095)
    ∧ (250 ≤ c.spinUpTimeout ∧ c.spinUpTimeout ≤ 7500) ∧ (250 ≤ c.plungeTimeout ∧ c.plungeTimeout ≤ 15000)
    ∧ (250 ≤ c.retractTimeout ∧ c.retractTimeout ≤ 7500) ∧ (5 ≤ c.retractRate ∧ c.retractRate ≤ 255)

/-- The ranges of R46. -/
def RegionWindow.inRange (w : RegionWindow) : Prop :=
  w.base ≤ Config.railTop ∧ 1 ≤ w.length ∧ w.length ≤ Config.railTop ∧ 1 ≤ w.derate ∧ w.derate ≤ 16
    ∧ -512 ≤ w.offset ∧ w.offset ≤ 511

/-- R4, R9 and the single law of R6, R9 and R12: an entry with content is LIVE exactly while its age does not exceed the
stale limit, and one without is ABSENT. -/
def NeighbourEntry.lawful (stale : Nat) (e : NeighbourEntry) : Prop :=
  (e.liveness = .absent ↔ e.content = none) ∧ e.age ≤ Config.countTop
    ∧ (e.liveness = .live → e.age ≤ stale) ∧ (e.liveness = .silent → stale < e.age)

/-- What every command keeps of the ranges and capacities the spec gives the blocks' state. -/
structure InRange (s : State) : Prop where
  /-- Pass Memory is canonical and holds 512 records (R56). -/
  memory : Memory.wf s.pm = true ∧ ∀ c ∈ s.pm, c.1 < Config.recordCount * Config.recordBytes
  /-- R46. -/
  windows : s.rm.length = 8 ∧ ∀ w ∈ s.rm, w.inRange
  /-- 9.3, R162, R163. -/
  constants : s.constants.inRange
  /-- R2: the view always contains the own rank. -/
  view : inView s.nt.view s.ownRank = true
  /-- R4: seven entries, one for each rank other than the own. -/
  entries : s.nt.entries.map (fun e => e.rank) = allRanks.filter (fun r => r ≠ s.ownRank)
    ∧ ∀ e ∈ s.nt.entries, e.lawful s.constants.staleLimit
  /-- R20, R33. -/
  speed : s.tg.v ≤ Config.speedTop
  /-- R20. -/
  position : ∀ p, s.tg.p = some p → p ≤ Config.railTop
  /-- R107: the trim is 0 whenever the head is not STIRRING. -/
  trim : s.hs.state ≠ .stirring → s.hs.trim = 0
  /-- R173: the enable is off in UNCONFIGURED and while the head is HALTED. -/
  enable : s.su.station = .unconfigured ∨ s.hs.state = .halted → s.dp.enable = false
  /-- R149: at most three replies hold a slot. -/
  replies : repliesHeld s ≤ Config.replyCapacity
  /-- R153. -/
  period : s.pli.periodCount ≤ 64
  /-- The model's mark stands only inside an event (log 10). -/
  noted : s.pli.changeNoted = false
  /-- R136. -/
  closed : s.ju.closedList.length ≤ Config.jointCapacity ∧ s.ju.closedList.Nodup

/-- The fields fit the bits of a record's eight words (12.7). -/
def PassRecord.carried (r : PassRecord) : Prop :=
  r.kindCode < 16 ∧ r.leadId < 256 ∧ r.trailId < 256 ∧ r.plungeRate < 256 ∧ r.rate < 65536 ∧ r.coolDwell < 65536
    ∧ r.plungeDepth < 16384 ∧ r.rpm < 4096 ∧ r.plungeDwell < 4096 ∧ r.setpoint < 4096 ∧ r.start < 33554432
    ∧ r.endPos < 33554432 ∧ r.release < 33554432 ∧ r.entryX < 33554432 ∧ r.standoff < 33554432

/-- The ranges of the blocks' own items that a station in order keeps, InRange apart. -/
structure WithinBounds (s : State) : Prop where
  /-- R20. -/
  travel : s.tg.stallCount ≤ Config.countTop ∧ s.tg.stirCount ≤ 2500 ∧ (∀ x, s.tg.fence = some x → x ≤ Config.railTop)
    ∧ (∀ x, s.tg.lastEnd = some x → x ≤ Config.railTop)
    ∧ ∀ m, s.tg.target = some m → m.endPos ≤ Config.railTop ∧ m.rate ≤ 2000
  /-- R72. -/
  executor : s.px.index ≤ 511 ∧ s.px.pauseCount ≤ Config.countTop ∧ 50 ≤ s.px.overrideInForce ∧ s.px.overrideInForce ≤ 120
    ∧ ∀ x, s.px.pendingOverride = some x → 50 ≤ x ∧ x ≤ 120
  /-- R91. -/
  completion : s.px.completion.index ≤ 511 ∧ s.px.completion.position ≤ Config.railTop
    ∧ s.px.completion.remaining ≤ Config.railTop
  /-- R56: the record in hand came from its eight words. -/
  record : ∀ r, s.px.record = some r → r.carried
  /-- R82: a held record has passed its checks. -/
  heldRecord : s.px.state = .waitSlot → ∀ r, s.px.record = some r → FieldsInRange .fresh .weld r ∧ r.endPos ≠ r.start
    ∧ (r.leadId ≠ 0 → r.release ≤ distance r.endPos r.start)
    ∧ (r.trailId ≠ 0 → r.endPos < r.start → r.entryX + r.standoff ≤ r.start)
  /-- R183. -/
  notify : ∀ i, s.su.notifyIndex = some i → i ≤ 511
  /-- R99, R107: the trim stays within −T to +T. -/
  head : s.hs.phase ≤ Config.countTop ∧ s.hs.zCommand ≤ Config.depthTop
    ∧ (s.hs.spindle = 0 ∨ (200 ≤ s.hs.spindle ∧ s.hs.spindle ≤ 3000)) ∧ s.hs.force ≤ Config.forceTop
    ∧ s.hs.forceAge ≤ Config.countTop ∧ -(s.constants.trimLimit : Int) ≤ s.hs.trim ∧ s.hs.trim ≤ s.constants.trimLimit
  /-- R61, R99. -/
  weld : ∀ w, s.hs.weld = some w → 200 ≤ w.rpm ∧ w.rpm ≤ 3000 ∧ 500 ≤ w.depth ∧ w.depth ≤ Config.depthTop
    ∧ 1 ≤ w.plungeRate ∧ w.plungeRate ≤ 255 ∧ w.dwell ≤ 2500 ∧ 100 ≤ w.setpoint ∧ w.setpoint ≤ Config.forceTop
  /-- R124. -/
  openJoints : ∀ e ∈ s.ju.openList, 1 ≤ e.id ∧ e.id ≤ 255 ∧ e.age ≤ Config.countTop ∧ e.release ≤ Config.railTop
  /-- R124. -/
  awaited : ∀ a, s.ju.awaited = some a → 1 ≤ a.id ∧ a.id ≤ 255 ∧ a.entryX ≤ Config.railTop ∧ a.hold ≤ Config.railTop
    ∧ a.coolDwell ≤ Config.countTop ∧ a.remaining ≤ Config.countTop
  /-- R124. -/
  closed : ∀ i ∈ s.ju.closedList, 1 ≤ i ∧ i ≤ 255
  /-- R174, R176. -/
  port : s.dp.age ≤ Config.countTop ∧ (∀ m, s.dp.slot = some m → m.force ≤ Config.forceTop)
    ∧ ∀ h, s.dp.held = some h → h.force ≤ Config.forceTop ∧ ∀ p, h.position = some p → p ≤ Config.railTop
  /-- R4, R5. -/
  beacons : ∀ e ∈ s.nt.entries, ∀ c, e.content = some c → c.speed ≤ Config.speedTop
    ∧ (∀ p, c.position = some p → p ≤ Config.railTop) ∧ c.openList.length ≤ Config.jointCapacity
    ∧ c.closedList.length ≤ Config.jointCapacity

/-! ### The discipline of a chain -/

/-- R71, R92, R165: station state and executor state move together. -/
def StationExecutor : StationState → ExecutorState → Prop
  | .unconfigured, x => x = .idle
  | .idle, x => x = .idle
  | .stopped, x => x = .stopped
  | .running, x => x ≠ .idle ∧ x ≠ .stopped

/-- R86, R88, R114: the head of a chain that is ending is parked, on its way there, or waiting with a pending retract. -/
def Settling (s : State) : Prop :=
  s.hs.state = .parked ∨ s.hs.state = .retracting ∨ (s.hs.state = .stirring ∧ s.hs.retractPending = true)

/-- R71: the head states of each executor state. No chain waits on a HALTED head (R86, R88). -/
def HeadFits (s : State) : Prop :=
  match s.px.state with
  | .idle => s.hs.state.working = false
  | .stopped => s.hs.state.working = false
  | .fetching =>
    match s.px.role with
    | .fresh => s.hs.state = .parked
    | .continuation => s.hs.state = .stirring
  | .waitSlot => s.hs.state = .parked
  | .active =>
    if s.px.record.bind PassRecord.kind = some .weld then s.hs.state.working = true else s.hs.state = .parked
  | .awaitHeadEnd => Settling s
  | .halting => Settling s

/-- The record a state works from, and the head's copy of its CONTINUE setting (R56, R81, R84). A COMPLETE that waits for
the head is not that of a WELD with CONTINUE set, which closes at once. -/
def RecordFits (s : State) : Prop :=
  match s.px.state with
  | .waitSlot => ∃ r, s.px.record = some r ∧ r.kind = some .weld ∧ s.px.role = .fresh ∧ r.leadId ≠ 0
      ∧ r.leadId ∉ s.ju.openList.map (fun e => e.id)
  | .active => ∃ r, s.px.record = some r ∧ s.tg.target.map (fun t => t.kind) = r.travelKind
      ∧ (r.kind = some .weld → ∃ w, s.hs.weld = some w ∧ w.cont = r.cont)
  | .fetching => s.px.role = .continuation → s.hs.weld.isSome = true
  | .awaitHeadEnd => ∀ r, s.px.record = some r → ∀ e, s.px.decided = some e → e.kind = .complete → r.continues = false
  | _ => True

/-- What every command keeps of the way executor, station, head and joints go together. -/
structure Disciplined (s : State) : Prop where
  station : StationExecutor s.su.station s.px.state
  head : HeadFits s
  record : RecordFits s
  /-- R23: the travel phase is open only under a started record, and for a WELD only with the head STIRRING. -/
  travel : s.tg.phaseOpen = true →
    s.px.state = .active ∧ ∃ t, s.tg.target = some t ∧ (t.kind = .weld → s.hs.state = .stirring)
  /-- R22: a motion target is held from record start to record close at the latest. -/
  target : s.tg.target ≠ none → s.px.state = .active ∨ s.px.state = .awaitHeadEnd ∨ s.px.state = .halting
  /-- R112, R114: a normal retract is pending only while a HALT or another end is being obeyed. -/
  pendingRetract : s.hs.retractPending = true →
    (s.hs.state = .stirring ∨ s.hs.state = .retracting) ∧ (s.px.state = .halting ∨ s.px.state = .awaitHeadEnd)
  /-- R101, R118, R120: while the emergency-stop line is asserted the head is PARKED or HALTED. -/
  stopped : s.dp.estop = true → s.hs.state = .parked ∨ s.hs.state = .halted
  /-- R90, R93: an end that is waited for is decided, and in HALTING it is HALTED. -/
  decided : (s.px.state = .awaitHeadEnd → s.px.decided.isSome = true)
    ∧ (s.px.state = .halting → s.px.decided = some ⟨.halted, none⟩)
  /-- R95, R168, R169: a LINE RESET is pending only while a chain ends with a stopping cause, or during a retract from HALTED. -/
  resetPending : s.su.lineResetPending = true →
    (s.su.station = .running ∧ (s.px.state = .halting ∨ s.px.state = .awaitHeadEnd)
        ∧ ∃ e, s.px.decided = some e ∧ ¬ NormalEnd e)
      ∨ (s.su.station ≠ .running ∧ s.hs.state = .retracting)
  /-- R45, R169, R181: in UNCONFIGURED the head is PARKED or HALTED, and nothing stands as reported in a chain. -/
  unconfigured : s.su.station = .unconfigured →
    (s.hs.state = .parked ∨ s.hs.state = .halted) ∧ s.tg.followReported = false ∧ s.dp.lostReported = false
      ∧ s.dp.driveReported = false
  /-- R125: at most four open joints, no two with one id. -/
  openList : s.ju.openList.length ≤ Config.jointCapacity ∧ (s.ju.openList.map (fun e => e.id)).Nodup

/-! ### Safe runs -/

/-- A station that is in order: what a run from reset is claimed never to leave. -/
structure Safe (s : State) : Prop where
  ranges : InRange s
  bounds : WithinBounds s
  discipline : Disciplined s

end Sys2Proof.Machine
end

