-- ==== Sys2Proof/Certificates/Slice0/Obligations.lean ====
section
/-! DEFINITION. The statements about the station, for the provers: each is one Prop, named for what it states. The rules
each rests on are in its docstring and in OBLIGATIONS.json. -/

open Sys2Proof Sys2Proof.Machine

/-! ### The machine as a whole -/

/-- A step is the front command's effect with the queue's rest; with nothing queued the block idles (log 4). -/
def Obligations.StepTakesFrontCommand : Prop :=
  (∀ (c : Instr) (rest : List Instr) (s : State), s.pending = c :: rest → step s = exec c { s with pending := rest })
    ∧ ∀ s : State, s.pending = [] → step s = .next s

/-- Every command has a next state in every state, and leaves the queue of waiting commands as it is. -/
def Obligations.CommandsLeaveQueue : Prop :=
  ∀ (c : Instr) (s : State), ∃ t, exec c s = .next t ∧ t.pending = s.pending

/-- POWER_UP gives every block its power-up values in any state, reads the pins as own rank and holds the two levels
(R1, R159, R178, R179), and the first own beacon waits for the period (R157). -/
def Obligations.PowerUpTakesItsValues : Prop :=
  ∀ (l : PowerUpLines) (s : State), ∃ t, exec (.powerUp l) s = .next t
    ∧ PowerUpValues t ∧ t.ownRank.val = l.straps.toNat ∧ t.dp.estop = l.estopAsserted ∧ t.dp.clamp = l.clampMade
    ∧ (t.pli.reception = .notTaken ↔ l.lineBusy = true) ∧ Part.same s t .pending

/-- The state after reset is in order, and holds the power-up values of every block (the tables of R19, R45, R55, R70, R98,
R123, R140, R157, R181, R189; R159). The pins and levels read, the Z command and the model's own fields are the model's
choices (logs 6 to 8) and are not stated. -/
def Obligations.ResetIsSafe : Prop :=
  PowerUpValues State.reset ∧ Safe State.reset

/-- Every step keeps the capacities and ranges of InRange, from any state that has them (R2, R4, R12, R46, R56, R107, R136,
R149, R153, R173), and every step of a station in order keeps the ranges of the blocks' items of WithinBounds: the Travel
Governor's (R20), the executor's (R72), the head's with the trim within −T to +T (R99, R107), the joints' (R124) and the Drive
Port's (R176). -/
def Obligations.RangesKept : Prop :=
  (∀ s t : State, InRange s → step s = .next t → InRange t)
    ∧ ∀ s t : State, Safe s → step s = .next t → WithinBounds t

/-- Every step of a station in order keeps station, executor, record, head, travel and open joints together as R22, R23, R71,
R86, R88, R90, R92, R101, R114, R118, R125 and R165 have them; a pending LINE RESET stands with what it waits for (R95, R168,
R169), and in UNCONFIGURED no report of a chain is left (R45, R181). -/
def Obligations.DisciplineKept : Prop :=
  ∀ s t : State, InRange s → Disciplined s → step s = .next t → Disciplined t

/-- The own rank changes at power-up alone; the interval count changes at an expiry, by one with wrap, and at power-up
(R1, R160); the reset cause changes only to POWER_UP at power-up and to LINE_RESET with the station UNCONFIGURED (R170).
Pass Memory is written by a PASS_LOAD and the windows by a REGION_LOAD alone, and never in RUNNING; power-up sets both
(R53, R55, R56, R67, R70). -/
def Obligations.KeptByOtherCommands : Prop :=
  ∀ (c : Instr) (s t : State), exec c s = .next t →
    (t.ownRank = s.ownRank ∨ ∃ l, c = .powerUp l)
    ∧ (t.clock = s.clock ∨ (∃ l, c = .powerUp l) ∨ ∃ o, c = .intervalClockExpiry o)
    ∧ (∀ o, c = .intervalClockExpiry o → t.clock.toNat = (s.clock.toNat + 1) % 4294967296)
    ∧ (t.su.resetCause = s.su.resetCause ∨ (∃ l, c = .powerUp l ∧ t.su.resetCause = .powerUp)
        ∨ (t.su.resetCause = .lineReset ∧ t.su.station = .unconfigured))
    ∧ (t.pm = s.pm ∨ (∃ l, c = .powerUp l ∧ ∀ a, readByte t.pm a = 0) ∨ (s.su.station ≠ .running ∧ ∃ bs, c = .passLoad bs))
    ∧ (t.rm = s.rm ∨ (∃ l, c = .powerUp l) ∨ (s.su.station ≠ .running ∧ ∃ bs, c = .regionLoad bs))

/-- An attention flag, once set, stays set until a STATUS REQUEST clears the ATTENTION section, power-up, or a LINE RESET
that takes effect in this command: a LINE_RESET row, or a pending one that is pending no longer (R182). The state is one whose
executor and head go together, as every step keeps it (DisciplineKept). -/
def Obligations.FlagsAreSticky : Prop :=
  ∀ (c : Instr) (s t : State) (f : AttentionFlag), Disciplined s → exec c s = .next t → s.flag f = true →
    t.flag f = true ∨ (∃ l, c = .powerUp l) ∨ (∃ bs, c = .statusRequestAttention bs ∧ t.su.flags = 0)
      ∨ (t.su = { station := .unconfigured, resetCause := .lineReset, lineResetPending := false, flags := 0, notifyIndex := none }
          ∧ (s.su.lineResetPending = true ∨ c = .lineResetTakesEffect ∨ ∃ bs, c = .lineReset bs))

/-- Whatever changes of what R154 lists, the change is in the own beacon pending, as the state stands after the whole event
(the model's reading, log 10), or change waiting is yes; power-up apart. -/
def Obligations.ReportedChangesReachTheLine : Prop :=
  ∀ (c : Instr) (s t : State), exec c s = .next t → reportedOf t ≠ reportedOf s →
    (∃ l, c = .powerUp l) ∨ t.pli.changeWaiting = true ∨ t.pli.beacon = some (assembleBeacon t)

/-! ### Layouts (chapter 12) -/

/-- A pass record written in its eight words reads back, field by field, for every value its fields have room for
(12.7). -/
def Obligations.RecordReadBack : Prop :=
  ∀ r : PassRecord, r.kindCode < 16 → r.leadId < 256 → r.trailId < 256 → r.plungeRate < 256 → r.rate < 65536 →
    r.coolDwell < 65536 → r.plungeDepth < 16384 → r.rpm < 4096 → r.plungeDwell < 4096 → r.setpoint < 4096 →
    r.start < 33554432 → r.endPos < 33554432 → r.release < 33554432 → r.entryX < 33554432 → r.standoff < 33554432 →
    (recordBytes r).length = 32 ∧ recordOfBytes (recordBytes r) = r

/-- A SETUP payload, a REGION LOAD payload and a feedback message read back for every value their fields have room for,
and a frame's bytes parse to the frame (12.2, 12.4, 12.8). -/
def Obligations.CommandsReadBack : Prop :=
  (∀ (mask : BitVec 8) (c : Constants), c.carried →
    (setupPayload mask c).length = 38 ∧ setupMask (setupPayload mask c) = mask
      ∧ setupConstants (setupPayload mask c) = c)
  ∧ (∀ (i : Nat) (w : RegionWindow), i < 256 → w.base < 4294967296 → w.length < 4294967296 → w.derate < 256 →
    -32768 ≤ w.offset → w.offset ≤ 32767 →
    (regionPayload i w).length = 14 ∧ fieldAt (regionPayload i w) 0 1 = i
      ∧ RegionKind.ofCode (fieldAt (regionPayload i w) 10 1) = some w.kind
      ∧ windowOfPayload (regionPayload i w) w.kind = w)
  ∧ (∀ m : Feedback, m.position < 4294967296 → m.z < 65536 → m.force < 4096 → m.faultCode < 256 →
    parseFeedback (feedbackBytes m) = some m)
  ∧ ∀ (k : FrameKind) (sender dest : Nat) (payload : List Byte), sender < 64 → dest < 256 → payload.length ≤ 131 →
    parseFrame (frameBytes k.cls sender dest k.code payload)
      = some { cls := k.cls, sender := sender, dest := dest, kindCode := k.code, payload := payload }

/-- An own beacon, as sent, is a frame of its kind to 255 at class 2 (R142, R143) that is well formed (R5), and every item that
was assembled stands in it at its place of 12.3 with its code of 12.6 (R4, R141, R152). A reply, as sent, is a frame of class 3
of its kind to the address of its request, with its payload (R150). -/
def Obligations.BeaconReadBack : Prop :=
  (∀ (own : Rank) (b : OwnBeacon), (∀ p, b.position = some p → p ≤ 33554431) → b.speed ≤ 2000 → b.index ≤ 511 →
    b.openList.length ≤ 4 → (b.openList.map (fun e => e.id)).Nodup →
    (∀ e ∈ b.openList, 1 ≤ e.id ∧ e.id ≤ 255 ∧ e.age ≤ 65535) →
    b.closedList.length ≤ 4 → b.closedList.Nodup → (∀ i ∈ b.closedList, 1 ≤ i ∧ i ≤ 255) →
    parseFrame ((OwnFrame.beacon b).bytes own)
        = some { cls := 2, sender := own.val, dest := 255, kindCode := 16, payload := b.payload }
      ∧ ¬ Malformed b.payload
      ∧ (beaconFields b.payload).content
        = { position := b.position, direction := b.direction, speed := b.speed, openList := b.openList
            closedList := b.closedList }
      ∧ fieldAt b.payload 0 2 = b.station.code ∧ fieldAt b.payload 2 2 = b.executor.code
      ∧ fieldAt b.payload 4 2 = b.head.code
      ∧ fieldAt b.payload 6 2 = (if b.position = none then 0 else 1) + (if b.direction = .down then 2 else 0)
          + (if b.summary then 4 else 0) + (if b.completionPending then 8 else 0)
      ∧ fieldAt b.payload 8 4 = b.position.getD 0 ∧ fieldAt b.payload 12 2 = b.speed ∧ fieldAt b.payload 14 2 = b.index)
  ∧ ([.unconfigured, .idle, .running, .stopped] : List StationState).map StationState.code = [0, 1, 2, 3]
  ∧ ([.idle, .fetching, .waitSlot, .active, .awaitHeadEnd, .halting, .stopped] : List ExecutorState).map ExecutorState.code
      = [0, 1, 2, 3, 4, 5, 6]
  ∧ ([.parked, .spinningUp, .plunging, .dwelling, .stirring, .retracting, .halted] : List HeadState).map HeadState.code
      = [0, 1, 2, 3, 4, 5, 6]
  ∧ ∀ (own : Rank) (dest : Nat) (payload : List Byte), dest < 256 → payload.length ≤ 131 →
    parseFrame ((OwnFrame.reply (.load dest payload)).bytes own)
        = some { cls := 3, sender := own.val, dest := dest, kindCode := 48, payload := payload }
      ∧ parseFrame ((OwnFrame.reply (.status dest payload)).bytes own)
        = some { cls := 3, sender := own.val, dest := dest, kindCode := 49, payload := payload }

/-! ### The Travel Governor (chapter 2) -/

/-- R30: the permitted speed is the formula, the largest speed from which a stop by steps of D covers no more than d; it is
0 at d = 0 and at least 1 for d of 1 or more; the argument stays in its bound; the curve keeps the stop within D. -/
def Obligations.PermittedSpeed : Prop :=
  (∀ n, isqrt n * isqrt n ≤ n ∧ n < (isqrt n + 1) * (isqrt n + 1))
  ∧ (∀ decel d, 1 ≤ decel → decel ≤ 32 →
      permittedSpeed decel d = (isqrt (decel ^ 2 + 8 * decel * d) - decel) / 2
      ∧ permittedSpeed decel d * (permittedSpeed decel d + decel) ≤ 2 * decel * d
      ∧ (∀ v, v * (v + decel) ≤ 2 * decel * d → v ≤ permittedSpeed decel d)
      ∧ permittedSpeed decel 0 = 0
      ∧ (1 ≤ d → 1 ≤ permittedSpeed decel d)
      ∧ (d ≤ 8388607 → decel ^ 2 + 8 * decel * d ≤ 2147484416)
      ∧ ∀ v, v ≤ d → v * (v + decel) ≤ 2 * decel * d → (v - decel) * (v - decel + decel) ≤ 2 * decel * (d - v))
  ∧ (∀ (c : Constants) (v target d : Nat), 1 ≤ c.accel → 1 ≤ c.decel → c.decel ≤ 32 → 1 ≤ target → 1 ≤ d →
      1 ≤ newSpeed c v target d)
  ∧ permittedSpeed 4 1 = 1 ∧ permittedSpeed 4 2 = 2 ∧ permittedSpeed 4 4 = 4 ∧ permittedSpeed 4 10 = 7
  ∧ permittedSpeed 4 100 = 26 ∧ permittedSpeed 4 1000 = 87 ∧ permittedSpeed 4 501000 = 2000

/-- R32: v_lim is the smaller of target and v_prev + A; v_ramped is v_lim where that is at least v_prev − D, and v_prev − D
or 0 otherwise; with the travel phase closed the target is 0. The target of an open travel phase is the record rate for a
MOVE, and the rate through derate and override, each with its floor, for a DRY or a WELD; at most 2000 (R31). -/
def Obligations.RampFollowsTarget : Prop :=
  (∀ accel decel v target : Nat,
    (v ≤ min target (v + accel) + decel → rampedSpeed accel decel v target = min target (v + accel))
    ∧ (min target (v + accel) + decel < v → rampedSpeed accel decel v target = v - decel)
    ∧ (v + accel ≤ target → rampedSpeed accel decel v target = v + accel)
    ∧ (target + decel ≤ v → rampedSpeed accel decel v target = v - decel)
    ∧ (target ≤ v → v ≤ target + decel → rampedSpeed accel decel v target = target))
  ∧ (∀ s : State, s.tg.phaseOpen = false →
    targetSpeed s = 0 ∧ rampedSpeed s.constants.accel s.constants.decel s.tg.v (targetSpeed s) = s.tg.v - s.constants.decel)
  ∧ ∀ (s : State) (p : Nat) (m : MotionTarget), s.tg.phaseOpen = true → s.tg.target = some m → s.tg.p = some p →
    (m.kind = .move → targetSpeed s = min 2000 m.rate)
    ∧ (m.kind ≠ .move → targetSpeed s =
        min 2000 (m.rate * (decodeRegion s.rm p).derate / 16 * s.px.overrideInForce / 100))

/-- R24, R33, R38, R71, R86: a computation gives v the smallest of v_ramped, v_perm and the clamped d, advances p by it toward
the fence and not past it, and sets FENCE_INTRUSION where v_perm is below v_prev − D; v grows by at most A and stays within
2000. One without a report changes nothing else but the counters, and one that moves the carriage sets both to 0 (R35, R36),
also with the travel phase closed and whatever the record's kind (the model's reading, log 30). With the travel phase closed,
be it for a HALT or a LINE RESET that is obeyed (R95, R168), nothing else changes either where v comes to 0 with the head
PARKED: the record does not close in that event but at the executor's turn (the model's reading of R71 and R86, log 19). With
the travel phase closed and v at 0, or p unknown (log 21), none is made. -/
def Obligations.TravelComputationAdvances : Prop :=
  (∀ (s : State) (p : Nat), s.tg.p = some p → (s.tg.phaseOpen = true ∨ 0 < s.tg.v) →
    s.su.lineResetPending = false ∨ s.tg.phaseOpen = false →
    ∃ t, exec .travelComputation s = .next t
      ∧ t.tg.v = min (rampedSpeed s.constants.accel s.constants.decel s.tg.v (targetSpeed s))
          (min (permittedSpeed s.constants.decel (min (distance (fenceAt s p) p) 8388607))
            (min (distance (fenceAt s p) p) 8388607))
      ∧ t.tg.fence = some (fenceAt s p)
      ∧ (s.tg.dir = .up → t.tg.p = some (p + t.tg.v) ∧ p + t.tg.v ≤ fenceAt s p)
      ∧ (s.tg.dir = .down → t.tg.p = some (p - t.tg.v) ∧ fenceAt s p + t.tg.v ≤ p)
      ∧ t.tg.v ≤ s.tg.v + s.constants.accel ∧ (s.tg.v ≤ 2000 → t.tg.v ≤ 2000)
      ∧ t.flag .fenceIntrusion = (s.flag .fenceIntrusion
          || decide (permittedSpeed s.constants.decel (min (distance (fenceAt s p) p) 8388607) + s.constants.decel < s.tg.v))
      ∧ (0 < t.tg.v ∨ s.tg.phaseOpen = false →
          Keeps [.tg, .su, .pli] s t ∧ FlagsKeep [.fenceIntrusion] s t ∧ LineKeeps s.pli t.pli
          ∧ t.tg = { s.tg with
              p := t.tg.p, v := t.tg.v, fence := t.tg.fence
              stallCount := if 0 < t.tg.v then 0 else s.tg.stallCount
              stirCount := if 0 < t.tg.v then 0 else s.tg.stirCount }))
  ∧ ∀ s : State, s.pli.changeNoted = false → (s.tg.p = none ∨ (s.tg.phaseOpen = false ∧ s.tg.v = 0)) →
    exec .travelComputation s = .next s

/-- R25, R26, R28, R29: the fence is the nearest of the candidates ahead, one behind the carriage taken as p. -/
def Obligations.FenceIsNearest : Prop :=
  ∀ (s : State) (p : Nat),
    (s.tg.dir = .up → (∀ x, Candidate s p x → (fenceAt s p : Int) ≤ max (p : Int) x)
      ∧ ∃ x, Candidate s p x ∧ (fenceAt s p : Int) = max (p : Int) x)
    ∧ (s.tg.dir = .down → (∀ x, Candidate s p x → min (p : Int) x ≤ fenceAt s p)
      ∧ ∃ x, Candidate s p x ∧ (fenceAt s p : Int) = min (p : Int) x)

/-- R34, R84, R89: a computation that finds p at the end with v at most D reports the path end. A MOVE or DRY closes COMPLETE;
without CHAIN its chain ends, and with CHAIN the next record's fetch begins and is in progress (log 5). A WELD with CONTINUE
clear puts the head in RETRACTING and the executor in AWAIT_HEAD_END. -/
def Obligations.PathEndCompletes : Prop :=
  ∀ (s : State) (r : PassRecord) (m : MotionTarget) (p : Nat), s.px.state = .active → s.px.record = some r →
    s.tg.target = some m → m.endPos = p → r.endPos = p → s.tg.p = some p → s.tg.lastEnd = some p →
    s.tg.phaseOpen = true → s.tg.v ≤ s.constants.decel → s.su.lineResetPending = false →
    ((m.kind ≠ .weld → r.kind = some .move ∨ r.kind = some .dry → r.chain = false → s.px.passed = true →
        s.hs.state = .parked →
      ∃ t, exec .travelComputation s = .next t
        ∧ Keeps [.tg, .px, .ju, .su, .pli] s t ∧ LineKeeps s.pli t.pli
        ∧ t.tg = { withdrawn s.tg with v := 0, fence := some p }
        ∧ t.px = executorAfter .idle ⟨.complete, none⟩ s.px.secondary p 0 s
        ∧ t.ju = afterClose .complete s.ju ∧ t.su = { s.su with station := .idle })
    ∧ (m.kind ≠ .weld → r.kind = some .move ∨ r.kind = some .dry → r.chain = true → s.hs.state = .parked →
      ∃ t, exec .travelComputation s = .next t
        ∧ Keeps [.tg, .px, .ju, .su, .pli] s t ∧ LineKeeps s.pli t.pli
        ∧ t.tg = { withdrawn s.tg with v := 0, fence := some p } ∧ t.ju = afterClose .complete s.ju
        ∧ NextFetched (s.px.index + 1) p s t)
    ∧ (∀ w, m.kind = .weld → r.kind = some .weld → r.cont = false → s.hs.state = .stirring → s.hs.weld = some w →
        w.cont = false →
      ∃ t, exec .travelComputation s = .next t
        ∧ Keeps [.tg, .px, .hs, .ju, .pli] s t ∧ LineKeeps s.pli t.pli
        ∧ t.tg = { s.tg with v := 0, fence := some p, phaseOpen := false }
        ∧ t.px = executorAwaits ⟨.complete, none⟩ s
        ∧ t.hs = { s.hs with state := .retracting, phase := 0, spindle := 0, trim := 0 }
        ∧ LeftStirring s t.ju))

/-- R31, R35, R36, R37, R85, R89, R111: a record that stands short of its end, with a fence at the carriage or a target of 0.
A MOVE or DRY counts toward the stall limit, and at the limit it closes SHORT with STALL: its chain ends, or, where
TOLERATE_SHORT and CHAIN are set, goes on to the next record, whose fetch is left in progress (the model's choice, log 5). A
WELD counts toward the stationary-stir limit; at the limit, or at once at the hold point of a VOID joint, the head goes
RETRACTING and the executor awaits the head end with SHORT and HOLD_EXPIRED, or with VOID_ALT. STALL and HOLD_EXPIRED are that
computation where they come about, and nothing in every other state (log 2). -/
def Obligations.StandingEndsShort : Prop :=
  (∀ (s : State) (r : PassRecord) (m : MotionTarget) (p : Nat), s.px.state = .active → s.px.record = some r →
    (r.kind = some .move ∨ r.kind = some .dry) → s.px.passed = true → s.hs.state = .parked →
    s.tg.target = some m → m.kind ≠ .weld → s.tg.p = some p → p ≠ m.endPos → s.tg.phaseOpen = true →
    s.tg.v ≤ s.constants.decel →
    newSpeed s.constants s.tg.v (targetSpeed s) (distance (fenceAt s p) p) = 0 → s.su.lineResetPending = false →
    (s.constants.stallLimit ≤ s.tg.stallCount + 1 → (r.tolerate = false ∨ r.chain = false) →
      ∃ t, exec .stall s = .next t ∧ exec .travelComputation s = .next t
        ∧ Keeps [.tg, .px, .ju, .su, .pli] s t ∧ LineKeeps s.pli t.pli
        ∧ t.tg = { withdrawn s.tg with v := 0, fence := some (fenceAt s p), stallCount := oneOn s.tg.stallCount }
        ∧ t.px = executorAfter .idle ⟨.short, some .stall⟩ s.px.secondary p (distance r.endPos p) s
        ∧ t.ju = afterClose .short s.ju ∧ t.su.station = .idle)
    ∧ (s.constants.stallLimit ≤ s.tg.stallCount + 1 → r.tolerate = true → r.chain = true →
      ∃ t, exec .stall s = .next t ∧ exec .travelComputation s = .next t
        ∧ Keeps [.tg, .px, .ju, .su, .pli] s t ∧ LineKeeps s.pli t.pli
        ∧ t.tg = { withdrawn s.tg with v := 0, fence := some (fenceAt s p), stallCount := oneOn s.tg.stallCount }
        ∧ t.ju = afterClose .short s.ju ∧ NextFetched (s.px.index + 1) p s t)
    ∧ (s.tg.stallCount + 1 < s.constants.stallLimit → s.pli.changeNoted = false →
      exec .stall s = .next s
        ∧ exec .travelComputation s = .next { s with
            tg := { s.tg with v := 0, fence := some (fenceAt s p), stallCount := oneOn s.tg.stallCount } }))
  ∧ (∀ s : State,
      (s.tg.p = none ∨ s.tg.phaseOpen = false ∨ s.tg.target = none ∨ s.tg.stallCount + 1 < s.constants.stallLimit
          ∨ (∃ m, s.tg.target = some m ∧ (m.kind = .weld ∨ s.tg.p = some m.endPos))
          ∨ (∃ p, s.tg.p = some p ∧ 0 < newSpeed s.constants s.tg.v (targetSpeed s) (distance (fenceAt s p) p)) →
        exec .stall s = .next s)
      ∧ (s.tg.p = none ∨ s.tg.phaseOpen = false ∨ s.tg.target = none ∨ s.tg.stirCount + 1 < s.constants.stirLimit
          ∨ (∃ m, s.tg.target = some m ∧ (m.kind ≠ .weld ∨ s.tg.p = some m.endPos))
          ∨ (∃ a, s.ju.awaited = some a ∧ a.state = .void ∧ s.tg.p = some a.hold)
          ∨ (∃ p, s.tg.p = some p ∧ 0 < newSpeed s.constants s.tg.v (targetSpeed s) (distance (fenceAt s p) p)) →
        exec .holdExpired s = .next s))
  ∧ ∀ (s : State) (m : MotionTarget) (p : Nat), s.px.state = .active → s.hs.state = .stirring →
    s.tg.target = some m → m.kind = .weld → s.tg.p = some p → p ≠ m.endPos → s.tg.phaseOpen = true →
    s.tg.v ≤ s.constants.decel →
    newSpeed s.constants s.tg.v (targetSpeed s) (distance (fenceAt s p) p) = 0 → s.pli.changeNoted = false →
    ((∀ a, s.ju.awaited = some a → a.state = .void → a.hold ≠ p) →
      (s.constants.stirLimit ≤ s.tg.stirCount + 1 →
        ∃ t, exec .holdExpired s = .next t ∧ exec .travelComputation s = .next t
          ∧ Keeps [.tg, .px, .hs, .ju, .pli] s t ∧ LineKeeps s.pli t.pli
          ∧ t.tg = { s.tg with
              v := 0, fence := some (fenceAt s p), phaseOpen := false, stirCount := min (s.tg.stirCount + 1) 2500 }
          ∧ t.px = executorAwaits ⟨.short, some .holdExpired⟩ s
          ∧ t.hs = { s.hs with state := .retracting, phase := 0, spindle := 0, trim := 0 } ∧ LeftStirring s t.ju)
      ∧ (s.tg.stirCount + 1 < s.constants.stirLimit →
        exec .holdExpired s = .next s
          ∧ exec .travelComputation s = .next { s with
              tg := { s.tg with v := 0, fence := some (fenceAt s p), stirCount := min (s.tg.stirCount + 1) 2500 } }))
    ∧ (∀ a, s.ju.awaited = some a → a.state = .void → a.hold = p →
      exec .holdExpired s = .next s
      ∧ ∃ t, exec .travelComputation s = .next t
        ∧ Keeps [.tg, .px, .hs, .ju, .pli] s t ∧ LineKeeps s.pli t.pli
        ∧ t.tg = { s.tg with v := 0, fence := some (fenceAt s p), phaseOpen := false }
        ∧ t.px = executorAwaits ⟨.voidAlt, none⟩ s
        ∧ t.hs = { s.hs with state := .retracting, phase := 0, spindle := 0, trim := 0 } ∧ LeftStirring s t.ju)

/-! ### The Region Map (chapter 3) -/

/-- R47: the lowest-numbered window that is enabled and covers the position decodes it; where none does, the descriptor is
the default one. -/
def Obligations.RegionDecoding : Prop :=
  ∀ (ws : List RegionWindow) (x : Nat),
    (∀ (i : Nat) (w : RegionWindow), ws[i]? = some w → w.enable = true → w.base ≤ x → x < w.base + w.length →
      (∀ (j : Nat) (y : RegionWindow), j < i → ws[j]? = some y → ¬ (y.enable = true ∧ y.base ≤ x ∧ x < y.base + y.length)) →
      decodeRegion ws x = { window := some i, kind := w.kind, derate := w.derate, offset := w.offset })
    ∧ ((∀ (i : Nat) (w : RegionWindow), ws[i]? = some w → ¬ (w.enable = true ∧ w.base ≤ x ∧ x < w.base + w.length)) →
      decodeRegion ws x = { window := none, kind := .solid, derate := 16, offset := 0 })

/-- R51: the span between two positions, both included, is open where some position of it decodes to OPEN. -/
def Obligations.OpeningCheck : Prop :=
  ∀ (ws : List RegionWindow) (a b : Nat),
    spanOpen ws a b = true ↔ ∃ x, min a b ≤ x ∧ x ≤ max a b ∧ (decodeRegion ws x).kind = .opening

/-! ### The Neighbour Table and the joints (chapters 1 and 7) -/

/-- R3: the upper neighbour is the lowest rank of the view above the own rank, the lower neighbour the highest below. -/
def Obligations.AdjacentNeighbours : Prop :=
  ∀ (own : Rank) (view : BitVec 8),
    (∀ r, upperNeighbour own view = some r ↔ own < r ∧ inView view r = true ∧ ∀ q, own < q → inView view q = true → r ≤ q)
    ∧ (upperNeighbour own view = none ↔ ∀ q, own < q → inView view q = false)
    ∧ (∀ r, lowerNeighbour own view = some r ↔ r < own ∧ inView view r = true ∧ ∀ q, q < own → inView view q = true → q ≤ r)
    ∧ (lowerNeighbour own view = none ↔ ∀ q, q < own → inView view q = false)

/-- R9, R10: at an expiry every entry grows older by one, and a LIVE one older than the stale limit goes SILENT, which sets
NEIGHBOUR_SILENT for an adjacent one in RUNNING. Without a rank conflict nothing else changes. ENTRY_GOES_SILENT is that
event where the entry named goes SILENT, and nothing otherwise (log 2). -/
def Obligations.EntriesAge : Prop :=
  (∀ s : State, s.su.lineResetPending = false → ∃ t, exec .neighbourTableAgeing s = .next t
    ∧ t.nt.view = s.nt.view ∧ t.nt.entries.length = s.nt.entries.length
    ∧ (∀ (i : Nat) (e : NeighbourEntry), s.nt.entries[i]? = some e → t.nt.entries[i]? = some { e with
        age := oneOn e.age
        liveness := if e.liveness = .live ∧ s.constants.staleLimit < oneOn e.age then .silent else e.liveness })
    ∧ (t.flag .neighbourSilent = true ↔ s.flag .neighbourSilent = true ∨ (s.su.station = .running
        ∧ ∃ e ∈ s.nt.entries, e.liveness = .live ∧ s.constants.staleLimit < oneOn e.age
          ∧ (upperNeighbour s.ownRank s.nt.view = some e.rank ∨ lowerNeighbour s.ownRank s.nt.view = some e.rank)))
    ∧ ((∀ p, s.tg.p = some p → ¬ Conflict t p) →
        Keeps [.nt, .su, .pli] s t ∧ FlagsKeep [.neighbourSilent] s t ∧ LineKeeps s.pli t.pli))
  ∧ (∀ (s : State) (r : Rank) (e : NeighbourEntry), s.su.lineResetPending = false → entryOf s.nt r = some e →
      e.liveness = .live → s.constants.staleLimit < oneOn e.age →
      ∃ t, exec (.entryGoesSilent r) s = .next t ∧ exec .neighbourTableAgeing s = .next t
        ∧ entryOf t.nt r = some { e with age := oneOn e.age, liveness := .silent })
  ∧ ∀ (s : State) (r : Rank), (∀ e, entryOf s.nt r = some e → e.liveness ≠ .live ∨ oneOn e.age ≤ s.constants.staleLimit) →
      exec (.entryGoesSilent r) s = .next s

/-- R6, R7, R14: a well-formed beacon from another rank is filed whole, LIVE with age 0, and its rank is in the view from
then on, setting STRANGER if it was not. One that touches no joint and finds no conflict changes nothing else. -/
def Obligations.BeaconFiled : Prop :=
  ∀ (s : State) (r : Rank) (dest : Byte) (payload : List Byte), BeaconTaken payload s → ¬ Malformed payload → r ≠ s.ownRank →
    s.su.lineResetPending = false →
    ∃ t, exec (.beacon (beaconFrame r dest payload)) s = .next t
      ∧ t.nt.entries.length = s.nt.entries.length
      ∧ (∀ (i : Nat) (e : NeighbourEntry), s.nt.entries[i]? = some e →
          (e.rank = r → t.nt.entries[i]? = some { e with
            liveness := .live, age := 0, content := some (beaconFields payload).content })
          ∧ (e.rank ≠ r → t.nt.entries[i]? = some e))
      ∧ (∀ q, inView t.nt.view q = (inView s.nt.view q || decide (q = r)))
      ∧ t.flag .stranger = (s.flag .stranger || !inView s.nt.view r)
      ∧ ((∀ e ∈ s.ju.openList, e.partner ≠ r) → (∀ a, s.ju.awaited = some a → a.partner ≠ r) →
          (∀ p, s.tg.p = some p → ¬ Conflict t p) →
          Keeps [.nt, .su, .pli] s t ∧ FlagsKeep [.stranger] s t ∧ LineKeeps { s.pli with reception := .none } t.pli)

/-- R129, R132: a filing removes the entries of the sender that its Closed Joint List names, in their order, a removed
current lead with its entry; and it evaluates an awaited joint of the sender by the table of R132. R82: where the removal makes
room, a WELD held in WAIT_SLOT starts in the same event, before the rank conflict check (log 23): the carriage's direction is that
from p to its end (R22), its lead entry's that from its start to its end (log 34), and it starts whatever the drive demand
enable (log 36). -/
def Obligations.BeaconSettlesJoints : Prop :=
  ∀ (s : State) (r : Rank) (dest : Byte) (payload : List Byte), BeaconTaken payload s → ¬ Malformed payload → r ≠ s.ownRank →
    s.su.lineResetPending = false →
    (s.px.state ≠ .waitSlot
        ∨ (∀ e ∈ s.ju.openList, ¬ (e.partner = r ∧ e.id ∈ (beaconFields payload).content.closedList)) →
      ∃ t, exec (.beacon (beaconFrame r dest payload)) s = .next t
      ∧ ((∀ p, s.tg.p = some p → ¬ Conflict t p) →
        Keeps [.nt, .ju, .su, .pli] s t ∧ FlagsKeep [.stranger] s t ∧ LineKeeps { s.pli with reception := .none } t.pli
        ∧ t.ju.openList
            = s.ju.openList.filter (fun e => decide (¬ (e.partner = r ∧ e.id ∈ (beaconFields payload).content.closedList)))
        ∧ ((∃ e ∈ s.ju.openList, e.partner = r ∧ e.id ∈ (beaconFields payload).content.closedList
            ∧ s.ju.currentLead = some e.id) → t.ju.currentLead = none)
        ∧ ((∀ e ∈ s.ju.openList, e.partner = r → e.id ∈ (beaconFields payload).content.closedList →
            s.ju.currentLead ≠ some e.id) → t.ju.currentLead = s.ju.currentLead)
        ∧ t.ju.closedList = s.ju.closedList
        ∧ ((∀ a, s.ju.awaited = some a → a.partner ≠ r) → t.ju.awaited = s.ju.awaited)
        ∧ ∀ a, s.ju.awaited = some a → a.partner = r → ∃ b, t.ju.awaited = some b
          ∧ Evaluated (beaconFields payload).content.openList a b))
    ∧ ∀ (x : PassRecord) (q : Rank) (p : Nat), s.px.state = .waitSlot → s.px.record = some x → s.px.role = .fresh →
      x.kind = some .weld → x.leadId ≠ 0 → s.px.leadPartner = some q → x.trailId = 0 → s.ju.awaited = none →
      s.hs.state = .parked → s.su.station = .running → s.tg.p = some p → s.dp.estop = false → s.dp.clamp = true →
      s.ju.openList.length ≤ 4 →
      (∃ e ∈ s.ju.openList, e.partner = r ∧ e.id ∈ (beaconFields payload).content.closedList) →
      ∃ t, exec (.beacon (beaconFrame r dest payload)) s = .next t
        ∧ (¬ Conflict t p →
          Keeps [.nt, .tg, .px, .hs, .ju, .su, .pli] s t ∧ FlagsKeep [.stranger] s t
          ∧ LineKeeps { s.pli with reception := .none } t.pli
          ∧ t.px = { s.px with state := .active } ∧ t.hs = headBegun x s.hs
          ∧ t.tg = targetGiven .weld x (towards p x.endPos s.tg.dir) false s.tg
          ∧ t.ju = { s.ju with
              openList := s.ju.openList.filter (fun e =>
                  decide (¬ (e.partner = r ∧ e.id ∈ (beaconFields payload).content.closedList)))
                ++ [leadEntry x q (towards x.start x.endPos s.tg.dir)]
              currentLead := some x.leadId })

/-- R5: a malformed beacon is discarded whole: no entry, flag or other state changes, whoever sent it. -/
def Obligations.MalformedBeaconDiscarded : Prop :=
  ∀ (s : State) (r : Rank) (dest : Byte) (payload : List Byte), BeaconTaken payload s → Malformed payload →
    s.pli.changeNoted = false →
    exec (.beacon (beaconFrame r dest payload)) s = .next { s with pli := { s.pli with reception := .none } }

/-- R8, R16, R17, R18, R87: a conflict that the check finds at an ageing, or at the filing of an adjacent rank's beacon, sets
RANK_CONFLICT, and a well-formed beacon that bears the own rank sets DUPLICATE_RANK and is not filed, in every station state.
Outside RUNNING that is all. In RUNNING the carriage stops at once, and the chain under way ends with RANK_CONFLICT by executor
state (R80, R82), or the code is filed as R90 has it; a further conflict while RANK_CONFLICT is decided files nothing (log
18). -/
def Obligations.RankConflictStops : Prop :=
  (∀ (s : State) (p : Nat), s.tg.p = some p → s.su.lineResetPending = false →
    ∃ t, exec .neighbourTableAgeing s = .next t ∧ (Conflict t p →
      t.flag .rankConflict = true ∧ ConflictActs .neighbourOrder [.nt] [.neighbourSilent, .rankConflict] s.pli s t))
  ∧ ∀ (s : State) (dest : Byte) (payload : List Byte), BeaconTaken payload s → ¬ Malformed payload →
    s.su.lineResetPending = false →
    (∃ t, exec (.beacon (beaconFrame s.ownRank dest payload)) s = .next t
      ∧ t.flag .duplicateRank = true
      ∧ ConflictActs .duplicateRank [] [.duplicateRank] { s.pli with reception := .none } s t)
    ∧ ∀ (r : Rank) (p : Nat), r ≠ s.ownRank → s.tg.p = some p → (∀ e ∈ s.ju.openList, e.partner ≠ r) →
      (∀ a, s.ju.awaited = some a → a.partner ≠ r) →
      ∃ t, exec (.beacon (beaconFrame r dest payload)) s = .next t
        ∧ (Conflict t p → upperNeighbour s.ownRank t.nt.view = some r ∨ lowerNeighbour s.ownRank t.nt.view = some r →
          t.flag .rankConflict = true
          ∧ ConflictActs .neighbourOrder [.nt] [.stranger, .rankConflict] { s.pli with reception := .none } s t)

/-- R126, R127, R133: the Joint Unit's expiry: READY entries grow older by one; with the head STIRRING a passed PENDING
lead becomes READY with ready age 0; a COOLING awaited joint counts down by one and is CLEAR at 0. COOLING_RUNS_OUT is that
event where the count reaches 0, and nothing otherwise (log 2). -/
def Obligations.JointUnitExpiry : Prop :=
  (∀ s : State, ∃ t, exec .jointUnitExpiry s = .next t
    ∧ Keeps [.ju, .pli] s t ∧ LineKeeps s.pli t.pli
    ∧ t.ju.openList.length = s.ju.openList.length
    ∧ (∀ (i : Nat) (e : OpenJoint), s.ju.openList[i]? = some e →
        (e.state = .ready → t.ju.openList[i]? = some { e with age := oneOn e.age })
        ∧ (Passed s e → t.ju.openList[i]? = some { e with state := .ready, age := 0 })
        ∧ (e.state ≠ .ready → ¬ Passed s e → t.ju.openList[i]? = some e))
    ∧ ((∃ e ∈ s.ju.openList, Passed s e) → t.ju.currentLead = none)
    ∧ ((¬ ∃ e ∈ s.ju.openList, Passed s e) → t.ju.currentLead = s.ju.currentLead)
    ∧ t.ju.closedList = s.ju.closedList
    ∧ (∀ a, s.ju.awaited = some a → a.state ≠ .cooling → t.ju.awaited = some a)
    ∧ (∀ a, s.ju.awaited = some a → a.state = .cooling → 1 < a.remaining →
        t.ju.awaited = some { a with remaining := a.remaining - 1 })
    ∧ (∀ a, s.ju.awaited = some a → a.state = .cooling → a.remaining ≤ 1 →
        exec .coolingRunsOut s = .next t ∧ t.ju.awaited = some { a with state := .clear, remaining := 0 })
    ∧ (s.ju.awaited = none → t.ju.awaited = none))
  ∧ ∀ s : State, (∀ a, s.ju.awaited = some a → a.state = .cooling → 1 < a.remaining) →
      exec .coolingRunsOut s = .next s

/-- R136: an id pushed onto the Closed Joint List is its newest; one already there is moved; the fifth drops the oldest; the
list holds at most 4 ids and none twice. -/
def Obligations.ClosedListPush : Prop :=
  ∀ (id : Nat) (ids : List Nat), ids.length ≤ 4 → ids.Nodup →
    (pushClosed id ids).length ≤ 4 ∧ (pushClosed id ids).Nodup ∧ (pushClosed id ids).getLast? = some id
    ∧ (id ∈ ids → pushClosed id ids = ids.erase id ++ [id])
    ∧ (id ∉ ids → ids.length < 4 → pushClosed id ids = ids ++ [id])
    ∧ (id ∉ ids → ids.length = 4 → pushClosed id ids = ids.tail ++ [id])

/-! ### Interval expiries (R160) -/

/-- R81, R153, R154, R160, R176: at an expiry that makes nothing due, whatever the order of the three blocks whose work
INTERVAL_CLOCK_EXPIRY does itself (the model's choice, log 3), the count goes up by one with wrap, the feedback age by one,
the period count by one or, once it is at the period, not at all, and a PAUSE's count down by one; nothing else changes. One
at which a single block has something due is that event with the counts of the other blocks: the end of a PAUSE (PAUSE_END), a
fetch or a wait that the executor's turn ends (RECORD_CLOSE, logs 5 and 19), FEEDBACK_LOST, and for the line a beacon by the
period (BEACON_PERIOD_DUE) and after it the end of the hold-off (HOLD_OFF_END). -/
def Obligations.IntervalExpiryCounts : Prop :=
  (∀ (o : ExpiryOrder) (s : State), s.pli.changeNoted = false →
    (s.su.station = .running → oneOn s.dp.age < 8 ∨ s.dp.lostReported = true) →
    s.px.state ≠ .awaitHeadEnd → s.px.state ≠ .halting → s.px.state ≠ .fetching →
    s.pli.holdOff = false → s.pli.periodOverrun = false → s.pli.periodCount + 1 ≠ s.constants.beaconPeriod →
    (¬ (s.px.state = .active ∧ ∃ r, s.px.record = some r ∧ r.kind = some .pause) →
      exec (.intervalClockExpiry o) s = .next { s with
        clock := s.clock + 1, dp := { s.dp with age := oneOn s.dp.age }
        pli := { s.pli with periodCount := periodOn s } })
    ∧ (∀ r, s.px.state = .active → s.px.record = some r → r.kind = some .pause → 1 < s.px.pauseCount →
      exec (.intervalClockExpiry o) s = .next { s with
        clock := s.clock + 1, dp := { s.dp with age := oneOn s.dp.age }
        px := { s.px with pauseCount := s.px.pauseCount - 1 }
        pli := { s.pli with periodCount := periodOn s } }))
  ∧ (∀ (o : ExpiryOrder) (s : State), s.pli.changeNoted = false → s.su.lineResetPending = false →
    s.pli.holdOff = false → s.pli.periodOverrun = false → s.pli.periodCount + 1 ≠ s.constants.beaconPeriod →
    ((s.su.station = .running → oneOn s.dp.age < 8 ∨ s.dp.lostReported = true) →
      (∀ r, s.px.state = .active → s.px.record = some r → r.kind = some .pause → s.px.pauseCount ≤ 1 →
        ∃ t, exec .pauseEnd s = .next t ∧ exec (.intervalClockExpiry o) s = .next { t with
          clock := s.clock + 1, dp := { t.dp with age := oneOn s.dp.age }
          pli := { t.pli with periodCount := periodOn s } })
      ∧ (s.px.state = .fetching ∨ s.px.state = .awaitHeadEnd ∨ s.px.state = .halting →
        ∃ t, exec .recordClose s = .next t ∧ exec (.intervalClockExpiry o) s = .next { t with
          clock := s.clock + 1, dp := { t.dp with age := oneOn s.dp.age }
          pli := { t.pli with periodCount := periodOn s } }))
    ∧ (s.su.station = .running → s.dp.lostReported = false → 8 ≤ oneOn s.dp.age →
        s.px.state = .waitSlot ∨ (s.px.state = .active ∧ ∀ r, s.px.record = some r → r.kind ≠ some .pause)
          ∨ ((s.px.state = .awaitHeadEnd ∨ s.px.state = .halting) ∧ (0 < s.tg.v ∨ s.hs.state ≠ .parked)) →
      ∃ t, exec .feedbackLost s = .next t ∧ exec (.intervalClockExpiry o) s = .next { t with
        clock := s.clock + 1, pli := { t.pli with periodCount := periodOn s } }))
  ∧ ∀ (o : ExpiryOrder) (s : State), s.pli.changeNoted = false →
    (s.su.station = .running → oneOn s.dp.age < 8 ∨ s.dp.lostReported = true) →
    s.px.state ≠ .awaitHeadEnd → s.px.state ≠ .halting → s.px.state ≠ .fetching →
    (¬ (s.px.state = .active ∧ ∃ r, s.px.record = some r ∧ r.kind = some .pause)) →
    ((s.pli.periodOverrun = true ∨ s.pli.periodCount + 1 = s.constants.beaconPeriod) →
      ∃ t u, exec .beaconPeriodDue s = .next t ∧ exec .holdOffEnd t = .next u
        ∧ exec (.intervalClockExpiry o) s = .next { u with clock := s.clock + 1, dp := { s.dp with age := oneOn s.dp.age } })
    ∧ (s.pli.periodOverrun = false → s.pli.periodCount + 1 ≠ s.constants.beaconPeriod →
      ∃ u, exec .holdOffEnd s = .next u
        ∧ exec (.intervalClockExpiry o) s = .next { u with
            clock := s.clock + 1, dp := { s.dp with age := oneOn s.dp.age }
            pli := { u.pli with periodCount := periodOn s } })

/-- R62, R81, R84, R89, R91, R92: the expiry at which a PAUSE's count reaches 0 closes it COMPLETE. Without CHAIN its chain
ends: IDLE, with remaining distance 0. With CHAIN the next record's fetch begins and is in progress (log 5). A PAUSE that has
more to count is left alone (log 2). -/
def Obligations.PauseEndCompletes : Prop :=
  ∀ (s : State) (r : PassRecord), s.px.state = .active → s.px.record = some r → r.kind = some .pause →
    s.su.lineResetPending = false →
    (s.px.pauseCount ≤ 1 → r.chain = false →
      ∃ t x, exec .pauseEnd s = .next t ∧ (∀ p, s.tg.p = some p → x = p)
        ∧ Keeps [.tg, .px, .ju, .su, .freeCount, .pli] s t ∧ LineKeeps s.pli t.pli ∧ t.tg = withdrawn s.tg
        ∧ t.px = { executorAfter .idle ⟨.complete, none⟩ s.px.secondary x 0 s with pauseCount := 0 }
        ∧ t.ju = afterClose .complete s.ju ∧ t.su = { s.su with station := .idle })
    ∧ (s.px.pauseCount ≤ 1 → r.chain = true →
      ∃ t x, exec .pauseEnd s = .next t ∧ (∀ p, s.tg.p = some p → x = p)
        ∧ Keeps [.tg, .px, .ju, .su, .freeCount, .pli] s t ∧ LineKeeps s.pli t.pli ∧ t.tg = withdrawn s.tg
        ∧ t.ju = afterClose .complete s.ju ∧ (s.px.index + 1 ≤ 511 → t.freeCount = s.freeCount)
        ∧ NextFetched (s.px.index + 1) x { s with px := { s.px with pauseCount := 0 } } t)
    ∧ (1 < s.px.pauseCount → exec .pauseEnd s = .next s)

/-- R80, R82, R86, R90, R176: the first expiry of a chain at which feedback is 8 or more expiries old reports FEEDBACK_LOST:
FAULT is set and the chain under way stops by executor and head state; while another end waits, the report replaces a normal end
or is filed as the secondary fault. Otherwise FEEDBACK_LOST does nothing (log 2). -/
def Obligations.FeedbackLostStops : Prop :=
  (∀ s : State, s.su.station = .running → s.dp.lostReported = false → 8 ≤ oneOn s.dp.age → s.px.state ≠ .idle →
    s.px.state ≠ .stopped → s.su.lineResetPending = false →
    ∃ t, exec .feedbackLost s = .next t ∧ t.flag .fault = true
      ∧ t.dp = { s.dp with age := oneOn s.dp.age, lostReported := true }
      ∧ Keeps [.tg, .px, .hs, .ju, .dp, .su, .freeCount, .pli] s t ∧ LineKeeps s.pli t.pli
      ∧ CauseActs ⟨.fault, some .feedbackLost⟩ .feedbackLost s.tg s.hs [.fault] s t)
  ∧ ∀ s : State, s.su.station ≠ .running ∨ s.dp.lostReported = true ∨ oneOn s.dp.age < 8 →
      exec .feedbackLost s = .next s

/-- R151, R153, R154: a beacon due by the period is assembled as the state stands, in place of a pending one, or makes change
waiting yes while an own beacon is in transmission, and the period count is at the period. The expiry that ends the hold-off
makes a beacon due if change waiting is yes. Where nothing is due, BEACON_PERIOD_DUE and HOLD_OFF_END do nothing (log 2); the
overrun mark is the model's for a SETUP that found the count at or above its period (log 31). -/
def Obligations.BeaconPeriodAndHoldOff : Prop :=
  ∀ s : State, s.pli.changeNoted = false →
    ((s.pli.periodOverrun = true ∨ s.pli.periodCount + 1 = s.constants.beaconPeriod) →
      ((¬ ∃ b, s.pli.transmitting = some (.beacon b)) → exec .beaconPeriodDue s = .next { s with
        pli := { s.pli with
          periodCount := s.constants.beaconPeriod, periodOverrun := false
          beacon := some (assembleBeacon s), changeWaiting := false } })
      ∧ ((∃ b, s.pli.transmitting = some (.beacon b)) → exec .beaconPeriodDue s = .next { s with
        pli := { s.pli with
          periodCount := s.constants.beaconPeriod, periodOverrun := false, changeWaiting := true } }))
    ∧ (s.pli.periodOverrun = false → s.pli.periodCount + 1 ≠ s.constants.beaconPeriod →
      exec .beaconPeriodDue s = .next s)
    ∧ (s.pli.holdOff = true → s.pli.changeWaiting = true → (¬ ∃ b, s.pli.transmitting = some (.beacon b)) →
      exec .holdOffEnd s = .next { s with
        pli := { s.pli with holdOff := false, changeWaiting := false, beacon := some (assembleBeacon s) } })
    ∧ (s.pli.holdOff = true → s.pli.changeWaiting = false →
      exec .holdOffEnd s = .next { s with pli := { s.pli with holdOff := false } })
    ∧ (s.pli.holdOff = false → exec .holdOffEnd s = .next s)

/-! ### The Head Sequencer (chapter 6) -/

/-- R107, R108, R121: an expiry in STIRRING, no pending retract due: with the force age below 8 one force step is made, by
the five steps of R107, and FORCE_SATURATED is set where the trim clamp changes the sum; from 8 on, below 32, trim and Z
command hold. Nothing else changes but the two counts. -/
def Obligations.ForceStepTrims : Prop :=
  ∀ (s : State) (w : WeldParams) (p : Nat), s.hs.state = .stirring → s.hs.weld = some w → s.tg.p = some p →
    (s.hs.retractPending = true → 0 < s.tg.v) →
    (oneOn s.hs.forceAge < 8 →
      ∃ t, exec .headExpiryWork s = .next t
        ∧ Keeps [.hs, .su, .pli] s t ∧ FlagsKeep [.forceSaturated] s t ∧ LineKeeps s.pli t.pli
        ∧ ∃ sum trim : Int,
          sum = s.hs.trim + limited (-(s.constants.maxTrimStep : Int)) s.constants.maxTrimStep
            (Int.tdiv ((limited 0 4095 (w.setpoint + (decodeRegion s.rm p).offset) - s.hs.force) * s.constants.forceGain) 64)
          ∧ trim = limited (-(s.constants.trimLimit : Int)) s.constants.trimLimit sum
          ∧ t.hs = { s.hs with
              phase := oneOn s.hs.phase, forceAge := oneOn s.hs.forceAge, trim := trim
              zCommand := (limited 0 12000 (w.depth + trim)).toNat }
          ∧ t.flag .forceSaturated = (s.flag .forceSaturated || decide (trim ≠ sum)))
    ∧ (8 ≤ oneOn s.hs.forceAge → oneOn s.hs.forceAge < 32 → s.pli.changeNoted = false →
      exec .headExpiryWork s = .next { s with
        hs := { s.hs with phase := oneOn s.hs.phase, forceAge := oneOn s.hs.forceAge } })

/-- R103 to R105, R108, R112, R121: an expiry in the other head states at which nothing ends: the two counts go up by one, the
Z command ramps down to the plunge depth by the plunge rate in PLUNGING and up to 0 by the retract rate in RETRACTING, and
nothing else changes. In RETRACTING no force fault is reported, whatever led there (R108; beside R41, log 37). -/
def Obligations.HeadRamps : Prop :=
  ∀ s : State, s.pli.changeNoted = false →
    (s.hs.state = .parked ∨ s.hs.state = .halted
        ∨ (s.hs.state = .spinningUp ∧ oneOn s.hs.phase < s.constants.spinUpTimeout)
        ∨ (s.hs.state = .dwelling ∧ oneOn s.hs.forceAge < 32 ∧ ∀ w, s.hs.weld = some w → oneOn s.hs.phase < w.dwell) →
      exec .headExpiryWork s = .next { s with
        hs := { s.hs with phase := oneOn s.hs.phase, forceAge := oneOn s.hs.forceAge } })
    ∧ (∀ w, s.hs.state = .plunging → s.hs.weld = some w → oneOn s.hs.phase < s.constants.plungeTimeout →
        oneOn s.hs.forceAge < 32 →
      exec .headExpiryWork s = .next { s with
        hs := { s.hs with
          phase := oneOn s.hs.phase, forceAge := oneOn s.hs.forceAge
          zCommand := if s.hs.zCommand + w.plungeRate ≤ w.depth then s.hs.zCommand + w.plungeRate else w.depth } })
    ∧ (s.hs.state = .retracting → oneOn s.hs.phase < s.constants.retractTimeout →
      exec .headExpiryWork s = .next { s with
        hs := { s.hs with
          phase := oneOn s.hs.phase, forceAge := oneOn s.hs.forceAge
          zCommand := if s.constants.retractRate ≤ s.hs.zCommand then s.hs.zCommand - s.constants.retractRate else 0 } })

/-- R86, R103, R104, R108, R115, R126: under an ACTIVE record, the expiry at which the phase count reaches the timeout in
SPINNING_UP or PLUNGING, and one at which the force age is 32 or more in PLUNGING, DWELLING or STIRRING: FAULT is set, the
head goes RETRACTING, from STIRRING with the release test, the target is withdrawn and the executor awaits the head end with
the detail. The Z ramp of the expiry comes before its checks, and a timeout row finds its timeout before a lost force of the
same expiry (the model's choices, log 13). Where nothing is found, in RETRACTING also by a HOLD_EXPIRED of the same expiry
(log 37), the three rows do nothing (log 2). -/
def Obligations.HeadFaultsRetract : Prop :=
  ∀ s : State,
    (s.px.state = .active →
      (s.hs.state = .spinningUp → s.constants.spinUpTimeout ≤ oneOn s.hs.phase →
        ∃ t, exec .spinTimeout s = .next t
          ∧ Keeps [.tg, .px, .hs, .su, .pli] s t ∧ t.flag .fault = true ∧ FlagsKeep [.fault] s t ∧ LineKeeps s.pli t.pli
          ∧ t.tg = withdrawn s.tg ∧ t.px = executorAwaits ⟨.fault, some .spinTimeout⟩ s
          ∧ t.hs = faultHead { s.hs with forceAge := oneOn s.hs.forceAge })
      ∧ (∀ w, s.hs.state = .plunging → s.hs.weld = some w → s.constants.plungeTimeout ≤ oneOn s.hs.phase →
        ∃ t, exec .plungeTimeout s = .next t
          ∧ Keeps [.tg, .px, .hs, .su, .pli] s t ∧ t.flag .fault = true ∧ FlagsKeep [.fault] s t ∧ LineKeeps s.pli t.pli
          ∧ t.tg = withdrawn s.tg ∧ t.px = executorAwaits ⟨.fault, some .plungeTimeout⟩ s
          ∧ t.hs = faultHead { s.hs with
              forceAge := oneOn s.hs.forceAge
              zCommand := if s.hs.zCommand + w.plungeRate ≤ w.depth then s.hs.zCommand + w.plungeRate else w.depth }))
    ∧ (s.hs.state ≠ .spinningUp ∨ oneOn s.hs.phase < s.constants.spinUpTimeout → exec .spinTimeout s = .next s)
    ∧ (s.hs.state ≠ .plunging ∨ oneOn s.hs.phase < s.constants.plungeTimeout → exec .plungeTimeout s = .next s)
    ∧ ((s.hs.state = .plunging ∨ s.hs.state = .dwelling ∨ s.hs.state = .stirring) → 32 ≤ oneOn s.hs.forceAge →
        s.px.state = .active → 0 < s.constants.retractTimeout →
      ∃ t, exec .forceLost s = .next t
        ∧ Keeps [.tg, .px, .hs, .ju, .su, .pli] s t ∧ t.flag .fault = true ∧ FlagsKeep [.fault] s t ∧ LineKeeps s.pli t.pli
        ∧ t.tg = withdrawn s.tg ∧ t.px = executorAwaits ⟨.fault, some .forceLost⟩ s ∧ LeftStirring s t.ju
        ∧ (s.hs.state ≠ .plunging → t.hs = faultHead { s.hs with forceAge := oneOn s.hs.forceAge })
        ∧ ∀ w, s.hs.state = .plunging → s.hs.weld = some w → t.hs = faultHead { s.hs with
            forceAge := oneOn s.hs.forceAge
            zCommand := if s.hs.zCommand + w.plungeRate ≤ w.depth then s.hs.zCommand + w.plungeRate else w.depth })
    ∧ (oneOn s.hs.forceAge < 32 ∨ (s.hs.state ≠ .plunging ∧ s.hs.state ≠ .dwelling ∧ s.hs.state ≠ .stirring) →
      exec .forceLost s = .next s)

/-- R23, R36, R105: the expiry at which the dwell count reaches the plunge dwell: STIRRING, trim 0, the Z command at the
plunge depth, the force age kept counting; the travel phase of the WELD opens and the stationary-stir counter is 0. Short of
it DWELL_END does nothing (log 2). -/
def Obligations.DwellEndStirs : Prop :=
  ∀ s : State,
    (∀ w m, s.hs.state = .dwelling → s.hs.weld = some w → w.dwell ≤ oneOn s.hs.phase → s.tg.target = some m →
        oneOn s.hs.forceAge < 32 → s.hs.retractPending = false →
      ∃ t, exec .dwellEnd s = .next t
        ∧ Keeps [.tg, .hs, .pli] s t ∧ LineKeeps s.pli t.pli
        ∧ t.tg = { s.tg with phaseOpen := true, stirCount := 0 }
        ∧ t.hs = { s.hs with
            state := .stirring, phase := 0, forceAge := oneOn s.hs.forceAge, trim := 0, zCommand := w.depth })
    ∧ (s.hs.state ≠ .dwelling ∨ (∀ w, s.hs.weld = some w → oneOn s.hs.phase < w.dwell) →
      exec .dwellEnd s = .next s)

/-- R39, R86, R90, R96, R112, R113, R121, R173: the expiry at which the phase count reaches the retract timeout in RETRACTING:
HALTED, the enable off, v 0 at once, FAULT set, the Z command ramped once more before the timeout is looked at (the model's
choice, log 13). A chain waiting with a decided end closes at once: with RETRACT_TIMEOUT after a normal end, with its own
stopping cause otherwise, RETRACT_TIMEOUT being its secondary fault where that was empty. With no chain the executor keeps its
state. Short of the timeout RETRACT_TIMEOUT does nothing (log 2). -/
def Obligations.RetractTimeoutHalts : Prop :=
  (∀ s : State, s.hs.state = .retracting → s.constants.retractTimeout ≤ oneOn s.hs.phase → s.su.lineResetPending = false →
    ∃ t, exec .retractTimeout s = .next t
      ∧ t.flag .fault = true ∧ LineKeeps s.pli t.pli ∧ t.dp = { s.dp with enable := false }
      ∧ t.hs = { s.hs with
          state := .halted, phase := 0, forceAge := oneOn s.hs.forceAge, spindle := 0, trim := 0, retractPending := false
          weld := none
          zCommand := if s.constants.retractRate ≤ s.hs.zCommand then s.hs.zCommand - s.constants.retractRate else 0 }
      ∧ ((s.px.state = .idle ∨ s.px.state = .stopped) →
          Keeps [.tg, .hs, .dp, .su, .pli] s t ∧ FlagsKeep [.fault] s t ∧ t.tg = { s.tg with v := 0, phaseOpen := false })
      ∧ (∀ e p, (s.px.state = .awaitHeadEnd ∨ s.px.state = .halting) → s.px.decided = some e → s.tg.p = some p →
          Keeps [.tg, .px, .hs, .ju, .dp, .su, .pli] s t ∧ t.tg = { withdrawn s.tg with v := 0 } ∧ t.su.station = .stopped
          ∧ (e.kind = .complete ∨ e.kind = .short ∨ e.kind = .voidAlt →
              t.ju = afterClose .fault s.ju
              ∧ ∃ d, t.px = executorAfter .stopped ⟨.fault, some .retractTimeout⟩ s.px.secondary p d s)
          ∧ (e.kind ≠ .complete → e.kind ≠ .short → e.kind ≠ .voidAlt →
              t.ju = afterClose e.kind s.ju
              ∧ ∃ d, t.px = executorAfter .stopped e (some (s.px.secondary.getD .retractTimeout)) p d s)))
  ∧ ∀ s : State, s.hs.state ≠ .retracting ∨ oneOn s.hs.phase < s.constants.retractTimeout →
      exec .retractTimeout s = .next s

/-- R107, R108, R112, R114, R121, R126: the expiry at which a pending normal retract finds v at 0: after that expiry's counts
and force step (the model's choice, log 13), which leave the Z command the retract starts from, the head goes RETRACTING, with
the release test; executor, travel and record stay as they are, and the pending mark stays until the head is PARKED (log 22).
A carriage still moving, or no pending retract, leaves PENDING_RETRACT_START without effect (log 2). -/
def Obligations.PendingRetractStarts : Prop :=
  ∀ s : State,
    (∀ w, s.hs.state = .stirring → s.hs.retractPending = true → s.tg.v = 0 → s.hs.weld = some w →
        oneOn s.hs.forceAge < 32 →
      ∃ t, exec .pendingRetractStart s = .next t
        ∧ Keeps [.tg, .hs, .ju, .su, .pli] s t ∧ FlagsKeep [.forceSaturated] s t ∧ LineKeeps s.pli t.pli
        ∧ t.tg = { s.tg with phaseOpen := false } ∧ LeftStirring s t.ju
        ∧ t.hs = { s.hs with
            state := .retracting, phase := 0, forceAge := oneOn s.hs.forceAge, spindle := 0, trim := 0
            zCommand := t.hs.zCommand }
        ∧ (8 ≤ oneOn s.hs.forceAge → t.hs.zCommand = s.hs.zCommand ∧ t.su = s.su)
        ∧ ∀ p, s.tg.p = some p → oneOn s.hs.forceAge < 8 → ∃ sum trim : Int,
          sum = s.hs.trim + limited (-(s.constants.maxTrimStep : Int)) s.constants.maxTrimStep
            (Int.tdiv ((limited 0 4095 (w.setpoint + (decodeRegion s.rm p).offset) - s.hs.force) * s.constants.forceGain) 64)
          ∧ trim = limited (-(s.constants.trimLimit : Int)) s.constants.trimLimit sum
          ∧ t.hs.zCommand = (limited 0 12000 (w.depth + trim)).toNat
          ∧ t.flag .forceSaturated = (s.flag .forceSaturated || decide (trim ≠ sum)))
    ∧ (s.hs.state ≠ .stirring ∨ s.hs.retractPending = false ∨ 0 < s.tg.v →
      exec .pendingRetractStart s = .next s)

/-- R103, R104, R105, R112: the feedback that completes a phase: at-speed in SPINNING_UP gives PLUNGING; in PLUNGING, the Z
command at the plunge depth and the measured Z at least that less 20 gives DWELLING, or STIRRING at once with a plunge dwell
of 0; in RETRACTING, the Z command at 0 with Z-clear gives PARKED. FEEDBACK_TAKEN does the same. Feedback that completes
nothing leaves the three rows without effect (log 2). -/
def Obligations.HeadCompletions : Prop :=
  ∀ (s : State) (m : Feedback), s.dp.slot = some m → s.dp.enable = true → s.tg.p ≠ none → FaultFree m s →
    ((s.hs.state = .spinningUp → m.atSpeed = true →
        ∃ t, exec .spinUpComplete s = .next t ∧ exec .feedbackTaken s = .next t ∧ Keeps [.hs, .dp, .pli] s t ∧ LineKeeps s.pli t.pli
          ∧ t.dp = feedbackHeld m s.dp ∧ t.hs = { forceTaken m s.hs with state := .plunging, phase := 0 })
      ∧ (∀ w, s.hs.state = .plunging → s.hs.weld = some w → s.hs.zCommand = w.depth → w.depth ≤ m.z + 20 →
        ∃ t, exec .plungeComplete s = .next t ∧ exec .feedbackTaken s = .next t ∧ Keeps [.tg, .hs, .dp, .pli] s t ∧ LineKeeps s.pli t.pli
          ∧ t.dp = feedbackHeld m s.dp
          ∧ (0 < w.dwell → t.tg = s.tg ∧ t.hs = { forceTaken m s.hs with state := .dwelling, phase := 0 })
          ∧ (w.dwell = 0 → t.tg = { s.tg with phaseOpen := s.tg.target.isSome, stirCount := 0 }
              ∧ t.hs = { forceTaken m s.hs with state := .stirring, phase := 0, trim := 0 }))
      ∧ (s.hs.state = .retracting → s.hs.zCommand = 0 → m.zClear = true → 0 < s.tg.v → s.px.state = .awaitHeadEnd →
        ∃ t, exec .retractComplete s = .next t ∧ exec .feedbackTaken s = .next t ∧ Keeps [.hs, .dp, .pli] s t ∧ LineKeeps s.pli t.pli
          ∧ t.dp = feedbackHeld m s.dp
          ∧ t.hs = { forceTaken m s.hs with state := .parked, phase := 0, weld := none, retractPending := false }))
    ∧ (s.hs.state ≠ .spinningUp ∨ m.atSpeed = false → exec .spinUpComplete s = .next s)
    ∧ (s.hs.state ≠ .plunging ∨ (∀ w, s.hs.weld = some w → s.hs.zCommand ≠ w.depth ∨ m.z + 20 < w.depth) →
        exec .plungeComplete s = .next s)
    ∧ (s.hs.state ≠ .retracting ∨ s.hs.zCommand ≠ 0 ∨ m.zClear = false → exec .retractComplete s = .next s)

/-- R89, R91, R92, R112, R120, R166: the retract's completion, by RETRACT_COMPLETE or FEEDBACK_TAKEN, with v at 0 ends what
waits for it: a record with a stopping cause ends its chain STOPPED; a COMPLETE record without flags ends it IDLE; a station
STOPPED after a retract from HALTED becomes IDLE; an IDLE executor keeps its state. R177: a message taken in RUNNING with a
fault code or a position out of range, not reported in the chain yet, is reported also where its own Z-clear ends the chain
first (RETRACT_COMPLETE, log 12): the mark and the flag FAULT are set, and the chain's end stays as it was decided. -/
def Obligations.HeadEndCloses : Prop :=
  (∀ (s : State) (m : Feedback) (p : Nat), s.dp.slot = some m → s.dp.enable = true → s.tg.p = some p → FaultFree m s →
    s.hs.state = .retracting → s.hs.zCommand = 0 → m.zClear = true → s.tg.v = 0 → s.su.lineResetPending = false →
    ∃ t, exec .retractComplete s = .next t ∧ exec .feedbackTaken s = .next t ∧ LineKeeps s.pli t.pli
      ∧ t.dp = feedbackHeld m s.dp
      ∧ t.hs = { forceTaken m s.hs with state := .parked, phase := 0, weld := none, retractPending := false }
      ∧ (∀ e r, (s.px.state = .awaitHeadEnd ∨ s.px.state = .halting) → s.px.decided = some e → s.px.record = some r →
          s.px.passed = true → r.kind = some .weld → r.chain = false → r.cont = false →
          Keeps [.tg, .px, .hs, .ju, .dp, .su, .pli] s t ∧ t.tg = withdrawn s.tg ∧ t.ju = afterClose e.kind s.ju
          ∧ (e.kind = .complete → t.su = { s.su with station := .idle }
              ∧ t.px = executorAfter .idle e s.px.secondary p (distance r.endPos p) s)
          ∧ (e.kind ≠ .complete → e.kind ≠ .short → e.kind ≠ .voidAlt → t.su.station = .stopped
              ∧ t.px = executorAfter .stopped e s.px.secondary p (distance r.endPos p) s))
      ∧ (s.px.state = .stopped → Keeps [.px, .hs, .dp, .su, .pli] s t ∧ t.px = { s.px with state := .idle }
          ∧ t.su = { s.su with station := .idle })
      ∧ (s.px.state = .idle → Keeps [.hs, .dp, .pli] s t))
  ∧ ∀ (s : State) (m : Feedback) (p : Nat) (e : Decision) (r : PassRecord), s.dp.slot = some m → s.dp.enable = true →
    s.tg.p = some p → FollowAccepted m s → ¬ DriveAccepted m s → s.su.station = .running →
    s.hs.state = .retracting → s.hs.zCommand = 0 → m.zClear = true → s.tg.v = 0 → s.su.lineResetPending = false →
    (s.px.state = .awaitHeadEnd ∨ s.px.state = .halting) → s.px.decided = some e → s.px.record = some r →
    s.px.passed = true → r.kind = some .weld → r.chain = false → r.cont = false →
    ∃ t, exec .retractComplete s = .next t ∧ LineKeeps s.pli t.pli
      ∧ Keeps [.tg, .px, .hs, .ju, .dp, .su, .pli] s t ∧ t.tg = withdrawn s.tg ∧ t.ju = afterClose e.kind s.ju
      ∧ t.dp = { feedbackHeld m s.dp with driveReported := true } ∧ t.flag .fault = true
      ∧ t.hs = { forceTaken m s.hs with state := .parked, phase := 0, weld := none, retractPending := false }
      ∧ (e.kind = .complete → t.su.station = .idle
          ∧ t.px = executorAfter .idle e s.px.secondary p (distance r.endPos p) s)
      ∧ (e.kind ≠ .complete → e.kind ≠ .short → e.kind ≠ .voidAlt → t.su.station = .stopped
          ∧ t.px = executorAfter .stopped e s.px.secondary p (distance r.endPos p) s)

/-! ### The Drive Port and the stop lines (chapter 10) -/

/-- R172, R174, 12.8: the demand message carries p, or 0 while p is unknown, the Z command, the spindle demand, or 0 with the
enable off, and the enable, eleven bytes on the drive link; what was sent is held in two fields of the model's own (log 14).
With the enable off p and the Z command are carried as they stand, also where a record that runs has moved them since the
latest feedback (the model's choice, log 39). A feedback message that arrives whole replaces what the receive slot holds, its
unused bits ignored (R190); one whose link check fails is discarded, and so are bytes that are not the twelve of 12.8 (the
model's choice, log 41). Nothing else changes at all. -/
def Obligations.DriveLinkMessages : Prop :=
  (∀ s : State, exec .demandMessage s = .next { s with
    dp := { s.dp with
      demand := some { position := s.tg.p.getD 0, zCommand := s.hs.zCommand
                       spindle := if s.dp.enable then s.hs.spindle else 0, enable := s.dp.enable }
      demandBytes := withCheck (bytesOfNat 4 (s.tg.p.getD 0) ++ bytesOfNat 2 s.hs.zCommand
        ++ bytesOfNat 2 (if s.dp.enable then s.hs.spindle else 0) ++ bytesOfNat 1 (if s.dp.enable then 1 else 0)) } })
  ∧ (∀ (s : State) (m : Feedback), m.position < 4294967296 → m.z < 65536 → m.force < 4096 → m.faultCode < 256 →
    exec (.feedbackReceived (feedbackBytes m)) s = .next { s with dp := { s.dp with slot := some m } })
  ∧ (∀ (s : State) (bs : List Byte), bs.length = 12 → natOfBytes (bs.drop 10) = checkOf (bs.take 10) →
    exec (.feedbackReceived bs) s = .next { s with
      dp := { s.dp with
        slot := some { position := fieldAt bs 0 4, z := fieldAt bs 4 2, atSpeed := decide (fieldAt bs 6 1 % 2 = 1)
                       zClear := decide (fieldAt bs 6 1 / 2 % 2 = 1), forceValid := decide (fieldAt bs 6 1 / 4 % 2 = 1)
                       force := fieldAt bs 7 2 % 4096, faultCode := fieldAt bs 9 1 } } })
  ∧ ∀ (s : State) (bs : List Byte), bs.length ≠ 12 ∨ natOfBytes (bs.drop 10) ≠ checkOf (bs.take 10) →
    exec (.feedbackReceived bs) s = .next s

/-- R21, R40, R100, R106, R109, R174, R175, R177: a message taken becomes the held values and the feedback age is 0; a valid
force is taken. With the enable off an in-range position sets p and the measured Z, clamped, the Z command; with it on they
are kept. That is all, where the message ends no head phase and is no fault; outside RUNNING, whatever its position and fault
code; and in RUNNING also where its position is past the following limit, or its position out of range or its fault code set,
and the fault has been reported in the chain already. A force taken in SPINNING_UP, RETRACTING, PARKED or HALTED is not
compared. With no message waiting nothing is taken. -/
def Obligations.FeedbackTakenHolds : Prop :=
  (∀ (s : State) (m : Feedback), s.dp.slot = some m → s.pli.changeNoted = false → ForceAccepted m s →
    (s.dp.enable = false → s.hs.state ≠ .plunging → s.hs.state ≠ .retracting → CompletesNothing m s →
        s.su.station ≠ .running ∨ DriveAccepted m s →
      exec .feedbackTaken s = .next { s with
        dp := feedbackHeld m s.dp
        tg := { s.tg with p := if m.position ≤ 33554431 then some m.position else s.tg.p }
        hs := { forceTaken m s.hs with zCommand := if m.z ≤ 12000 then m.z else 12000 } })
    ∧ (s.dp.enable = true → s.tg.p ≠ none → CompletesNothing m s →
        s.su.station ≠ .running ∨ (FollowAccepted m s ∧ DriveAccepted m s) →
      exec .feedbackTaken s = .next { s with dp := feedbackHeld m s.dp, hs := forceTaken m s.hs }))
  ∧ ∀ s : State, s.dp.slot = none → s.pli.changeNoted = false → exec .feedbackTaken s = .next s

/-- R40, R80, R82, R86, R90, R109, R115, R175, R177: a message that is a fault, taken in RUNNING with the enable on and p
known while a chain is under way: FOLLOWING where the position differs from p by more than the following limit; OVERLOAD where
a valid force taken in PLUNGING, DWELLING or STIRRING is above the ceiling; DRIVE_REPORTED for a fault code or a position out
of range. Each sets FAULT and stops the chain by executor and head state, or replaces or joins the end that waits, one that
HOLD_EXPIRED decided at the same expiry too (R41, log 37); FOLLOWING and DRIVE_REPORTED are marked as reported in the chain,
and one reported already adds nothing to another fault of the message. A message that is both FOLLOWING and OVERLOAD ends an
ACTIVE record with the first and files the second (the order is the model's choice, log 12). -/
def Obligations.FeedbackFaultsStop : Prop :=
  ∀ (s : State) (m : Feedback) (p : Nat), s.dp.slot = some m → s.su.station = .running → s.px.state ≠ .idle →
    s.px.state ≠ .stopped → s.dp.enable = true → s.tg.p = some p → CompletesNothing m s → s.su.lineResetPending = false →
    ∃ t, exec .feedbackTaken s = .next t
      ∧ (s.tg.followReported = false → m.position ≤ 33554431 → s.constants.followLimit < distance p m.position →
          ForceAccepted m s → DriveAccepted m s →
        Keeps [.tg, .px, .hs, .ju, .dp, .su, .freeCount, .pli] s t ∧ t.flag .fault = true
        ∧ LineKeeps s.pli t.pli ∧ t.dp = feedbackHeld m s.dp
        ∧ CauseActs ⟨.fault, some .following⟩ .following { s.tg with followReported := true } (forceTaken m s.hs) [.fault] s t)
      ∧ (¬ ForceAccepted m s → FollowAccepted m s → DriveAccepted m s →
        Keeps [.tg, .px, .hs, .ju, .dp, .su, .freeCount, .pli] s t ∧ t.flag .fault = true
        ∧ LineKeeps s.pli t.pli ∧ t.dp = feedbackHeld m s.dp
        ∧ CauseActs ⟨.fault, some .overload⟩ .overload s.tg (forceTaken m s.hs) [.fault] s t)
      ∧ (s.dp.driveReported = false → (m.faultCode ≠ 0 ∨ 33554431 < m.position) →
          FollowAccepted m s → ForceAccepted m s →
        Keeps [.tg, .px, .hs, .ju, .dp, .su, .freeCount, .pli] s t ∧ t.flag .fault = true
        ∧ LineKeeps s.pli t.pli ∧ t.dp = { feedbackHeld m s.dp with driveReported := true }
        ∧ CauseActs ⟨.fault, some .driveReported⟩ .driveReported s.tg (forceTaken m s.hs) [.fault] s t)
      ∧ (s.tg.followReported = false → m.position ≤ 33554431 → s.constants.followLimit < distance p m.position →
          ¬ ForceAccepted m s → DriveAccepted m s → s.px.state = .active →
        Keeps [.tg, .px, .hs, .ju, .dp, .su, .pli] s t ∧ t.flag .fault = true ∧ FlagsKeep [.fault] s t
        ∧ LineKeeps s.pli t.pli ∧ LeftStirring s t.ju ∧ t.dp = feedbackHeld m s.dp
        ∧ t.tg = { withdrawn s.tg with followReported := true } ∧ t.hs = faultHead (forceTaken m s.hs)
        ∧ t.px = { executorAwaits ⟨.fault, some .following⟩ s with
            secondary := some (s.px.secondary.getD .overload) })

/-- R39, R88, R90, R118, R138, R173, R178: an assertion of the emergency-stop line turns the enable off, sets v to 0 at once
and puts a head out of PARKED in HALTED; with no chain that is all; a chain in progress ends at once with ESTOP and its
record's joints close without a release test. A further assertion does nothing (the model's reading, log 25); a release
changes the held level alone. R86, R115, R117, R179: the clamp-made line going false with the head at work under an ACTIVE
record is CLAMP_LOST, with the fault retract; with the head PARKED, RETRACTING (by a HOLD_EXPIRED of the same expiry too, log
37) or HALTED only the held level changes, also where it is false already (log 25), and so it does on a change to true. -/
def Obligations.LevelInputs : Prop :=
  (∀ s : State, s.dp.estop = false → s.su.lineResetPending = false →
    ∃ t, exec .emergencyStopAsserted s = .next t
      ∧ t.dp = { s.dp with estop := true, enable := false } ∧ t.tg.v = 0 ∧ t.tg.phaseOpen = false ∧ t.tg.p = s.tg.p
      ∧ LineKeeps s.pli t.pli
      ∧ ((s.hs.state = .parked ∨ s.hs.state = .halted) → t.hs = s.hs)
      ∧ (s.hs.state ≠ .parked → s.hs.state ≠ .halted → t.hs = { s.hs with
          state := .halted, phase := 0, spindle := 0, trim := 0, retractPending := false, weld := none })
      ∧ ((s.px.state = .idle ∨ s.px.state = .stopped) →
          Keeps [.tg, .hs, .dp, .pli] s t ∧ t.tg = { s.tg with v := 0, phaseOpen := false })
      ∧ ((s.px.state = .fetching ∨ s.px.state = .waitSlot ∨ s.px.state = .active ∨ s.px.state = .halting
            ∨ (s.px.state = .awaitHeadEnd
                ∧ ∃ e, s.px.decided = some e ∧ (e.kind = .complete ∨ e.kind = .short ∨ e.kind = .voidAlt))) →
          Keeps [.tg, .px, .hs, .ju, .dp, .su, .freeCount, .pli] s t ∧ t.su.station = .stopped
          ∧ t.ju = afterClose .estop s.ju ∧ t.tg = { withdrawn s.tg with v := 0 }
          ∧ ∃ x d, (∀ p, s.tg.p = some p → x = p)
            ∧ t.px = executorAfter .stopped ⟨.estop, none⟩ s.px.secondary x d s)
      ∧ (∀ e p, s.px.state = .awaitHeadEnd → s.px.decided = some e → s.tg.p = some p →
          e.kind ≠ .complete → e.kind ≠ .short → e.kind ≠ .voidAlt →
          t.su.station = .stopped ∧ t.ju = afterClose e.kind s.ju
          ∧ ∃ d, t.px = executorAfter .stopped e (some (s.px.secondary.getD .estop)) p d s))
  ∧ (∀ s : State, s.dp.estop = true → exec .emergencyStopAsserted s = .next s)
  ∧ (∀ s : State, exec .emergencyStopReleased s = .next { s with dp := { s.dp with estop := false } })
  ∧ (∀ s : State, s.dp.clamp = true → s.px.state = .active → s.hs.state.working = true →
    ∃ t, exec .clampLineFalse s = .next t
      ∧ Keeps [.tg, .px, .hs, .ju, .dp, .su, .pli] s t ∧ t.flag .fault = true ∧ FlagsKeep [.fault] s t
      ∧ LineKeeps s.pli t.pli ∧ LeftStirring s t.ju
      ∧ t.dp = { s.dp with clamp := false } ∧ t.tg = withdrawn s.tg ∧ t.hs = faultHead s.hs
      ∧ t.px = executorAwaits ⟨.fault, some .clampLost⟩ s)
  ∧ (∀ s : State, s.pli.changeNoted = false →
      s.dp.clamp = false ∨ s.hs.state = .parked ∨ s.hs.state = .retracting ∨ s.hs.state = .halted →
      exec .clampLineFalse s = .next { s with dp := { s.dp with clamp := false } })
  ∧ ∀ s : State, exec .clampLineTrue s = .next { s with dp := { s.dp with clamp := true } }

/-! ### The Peer Line (chapter 8) -/

/-- R144, R145, R149: at an idle line the head of the queue begins, a beacon before any reply, and its bytes go out; it wins
against arbitration fields that are not below its own. A lower one wins over it, and the station receives that frame with
its queue as it was. Nothing begins with the own frame still on the line (log 26). A frame that leaves frees its slot; an own
beacon that leaves restarts the period count, ends the overrun mark (log 31) and begins the hold-off. The bytes sent are the
model's own field (log 14). -/
def Obligations.FrameStartAndLeave : Prop :=
  ∀ s : State,
    (∀ (b : OwnBeacon) (rivals : List Byte), s.pli.transmitting = none → s.pli.beacon = some b →
        (∀ x ∈ rivals, 128 + s.ownRank.val ≤ x.toNat) →
      exec (.frameStart rivals) s = .next { s with
        pli := { s.pli with
          beacon := none, transmitting := some (.beacon b), reception := .none
          lineBytes := (OwnFrame.beacon b).bytes s.ownRank } })
    ∧ (∀ (x : Reply) (rest : List Reply) (rivals : List Byte), s.pli.transmitting = none → s.pli.beacon = none →
        s.pli.replies = x :: rest → (∀ y ∈ rivals, 192 + s.ownRank.val ≤ y.toNat) →
      exec (.frameStart rivals) s = .next { s with
        pli := { s.pli with
          replies := rest, transmitting := some (.reply x), reception := .none
          lineBytes := (OwnFrame.reply x).bytes s.ownRank } })
    ∧ (∀ (b : OwnBeacon) (rivals : List Byte) (y : Byte), s.pli.transmitting = none → s.pli.beacon = some b → y ∈ rivals →
        y.toNat < 128 + s.ownRank.val →
      exec (.frameStart rivals) s = .next { s with pli := { s.pli with reception := .underWay } })
    ∧ (∀ (x : Reply) (rest : List Reply) (rivals : List Byte) (y : Byte), s.pli.transmitting = none → s.pli.beacon = none →
        s.pli.replies = x :: rest → y ∈ rivals → y.toNat < 192 + s.ownRank.val →
      exec (.frameStart rivals) s = .next { s with pli := { s.pli with reception := .underWay } })
    ∧ (∀ rivals : List Byte, s.pli.transmitting = none → s.pli.beacon = none → s.pli.replies = [] →
      exec (.frameStart rivals) s = .next { s with
        pli := { s.pli with reception := if rivals = [] then .none else .underWay } })
    ∧ (∀ rivals : List Byte, s.pli.transmitting ≠ none → exec (.frameStart rivals) s = .next s)
    ∧ (∀ b : OwnBeacon, s.pli.transmitting = some (.beacon b) → exec .frameLeftLine s = .next { s with
        pli := { s.pli with transmitting := none, periodCount := 0, periodOverrun := false, holdOff := true } })
    ∧ (∀ x : Reply, s.pli.transmitting = some (.reply x) →
      exec .frameLeftLine s = .next { s with pli := { s.pli with transmitting := none } })
    ∧ (s.pli.transmitting = none → exec .frameLeftLine s = .next s)

/-- R146, R147, R150: a frame that is too short, too long or fails its check is no frame; one of those, one that was under way
at power-up, and one that any of the nine filters discards, is handed to no owner: whatever command brings it, only the
reception is over. That bytes beyond a frame's length make it no frame, and that FRAME_DISCARDED does not look at its bytes, are the
model's choices (log 9). -/
def Obligations.FiltersDiscard : Prop :=
  ∀ (bs : List Byte) (s : State),
    exec (.frameDiscarded bs) s = .next { s with pli := { s.pli with reception := .none } }
    ∧ (bs.length < 6 → parseFrame bs = none)
    ∧ (∀ arb dst kind len rest, bs = arb :: dst :: kind :: len :: rest →
        131 < len.toNat ∨ rest.length < len.toNat + 2
          ∨ natOfBytes (rest.drop len.toNat) ≠ checkOf (arb :: dst :: kind :: len :: rest.take len.toNat) →
        parseFrame bs = none)
    ∧ (s.pli.reception = .notTaken ∨ parseFrame bs = none ∨ (∃ f, parseFrame bs = some f ∧ Discarded f s) →
        ∀ mk ∈ frameCommands, exec (mk bs) s = .next { s with pli := { s.pli with reception := .none } })

/-- R74, R156: an OVERRIDE's percentage, brought to 50 to 120, is the pending override; PARAM_CLAMPED is set where it was
outside. -/
def Obligations.OverrideClamped : Prop :=
  ∀ (s : State) (sender dest : Nat) (b : Byte), Taken .override sender dest [b] s →
    ∃ t, exec (.override (cellFrame .override sender dest [b])) s = .next t
      ∧ Keeps [.px, .su, .pli] s t ∧ FlagsKeep [.paramClamped] s t ∧ LineKeeps { s.pli with reception := .none } t.pli
      ∧ t.px = { s.px with pendingOverride := some (nearest 50 120 b.toNat) }
      ∧ t.flag .paramClamped = (s.flag .paramClamped || decide (b.toNat < 50 ∨ 120 < b.toNat))

/-! ### Loads and status (chapters 3, 4 and 11) -/

/-- R56, R67, R69: a PASS_LOAD is BUSY in RUNNING, FORMAT with a count of 0 or above 4 or a payload that is not count times 32
bytes and 3, RANGE past record 511, and ACCEPTED otherwise. An accepted one replaces its records, and no other byte of Pass
Memory; any other none. The LOAD REPLY, with index and count as carried, is queued as the newest. -/
def Obligations.PassLoadWrites : Prop :=
  ∀ (s : State) (sender dest : Nat) (payload : List Byte), Taken .passLoad sender dest payload s →
    s.pli.changeNoted = false → Memory.wf s.pm = true →
    ∃ (t : State) (result : Nat), exec (.passLoad (cellFrame .passLoad sender dest payload)) s = .next t
      ∧ Keeps [.pm, .pli] s t
      ∧ t.pli = { s.pli with
          reception := .none
          replies := s.pli.replies ++ [.load sender (bytesOfNat 1 32 ++ bytesOfNat 1 result
            ++ bytesOfNat 2 (fieldAt payload 0 2) ++ bytesOfNat 1 (fieldAt payload 2 1))] }
      ∧ (s.su.station = .running → result = 1)
      ∧ (s.su.station ≠ .running →
          (fieldAt payload 2 1 = 0 ∨ 4 < fieldAt payload 2 1 ∨ payload.length ≠ 3 + 32 * fieldAt payload 2 1 → result = 2)
          ∧ (1 ≤ fieldAt payload 2 1 → fieldAt payload 2 1 ≤ 4 → payload.length = 3 + 32 * fieldAt payload 2 1 →
            (512 < fieldAt payload 0 2 + fieldAt payload 2 1 → result = 3)
            ∧ (fieldAt payload 0 2 + fieldAt payload 2 1 ≤ 512 → result = 0)))
      ∧ (result ≠ 0 → t.pm = s.pm)
      ∧ (result = 0 →
          (∀ j, j < fieldAt payload 2 1 →
            readRecord t.pm (fieldAt payload 0 2 + j) = recordOfBytes ((payload.drop (3 + 32 * j)).take 32))
          ∧ ∀ a, a < 32 * fieldAt payload 0 2 ∨ 32 * (fieldAt payload 0 2 + fieldAt payload 2 1) ≤ a →
            readByte t.pm a = readByte s.pm a)

/-- R46, R53: a REGION_LOAD is BUSY in RUNNING; FORMAT with a window index above 7, an unknown kind or a wrong length; RANGE
with a field out of range; ACCEPTED otherwise, its window then replaced whole and no other. The LOAD REPLY is queued as the
newest. -/
def Obligations.RegionLoadReplaces : Prop :=
  ∀ (s : State) (sender dest : Nat) (payload : List Byte), Taken .regionLoad sender dest payload s →
    s.pli.changeNoted = false →
    ∃ (t : State) (result : Nat), exec (.regionLoad (cellFrame .regionLoad sender dest payload)) s = .next t
      ∧ Keeps [.rm, .pli] s t
      ∧ t.pli = { s.pli with
          reception := .none
          replies := s.pli.replies ++ [.load sender (bytesOfNat 1 33 ++ bytesOfNat 1 result
            ++ bytesOfNat 2 (fieldAt payload 0 1) ++ bytesOfNat 1 0)] }
      ∧ (s.su.station = .running → result = 1)
      ∧ (s.su.station ≠ .running → 7 < fieldAt payload 0 1 ∨ 2 < fieldAt payload 10 1 ∨ payload.length ≠ 14 → result = 2)
      ∧ (result ≠ 0 → t.rm = s.rm)
      ∧ ∀ (i : Nat) (w : RegionWindow), payload = regionPayload i w → i ≤ 7 → w.base < 4294967296 →
          w.length < 4294967296 → w.derate < 256 → -32768 ≤ w.offset → w.offset ≤ 32767 → s.su.station ≠ .running →
          (w.inRange → result = 0 ∧ t.rm = s.rm.set i w) ∧ (¬ w.inRange → result = 3)

/-- R184 to R187, R141, 12.5: each status request is answered with its section as the state stands, assembled before its clear
option acts; COMPLETION with clear clears completion pending and ATTENTION with clear every flag; a section that is none of
the four is answered FORMAT. The reply is queued as the newest and nothing else changes. Bits 7 to 4 of the STATION section's
bits byte are sent as 0 (the model's choice, log 40). -/
def Obligations.StatusRequestsAnswered : Prop :=
  ∀ (s : State) (sender dest : Nat) (sec opt : Byte), Taken .statusRequest sender dest [sec, opt] s →
    s.pli.changeNoted = false →
    (sec.toNat = 1 → ∃ t x, exec (.statusRequestStation (cellFrame .statusRequest sender dest [sec, opt])) s = .next t
      ∧ Keeps [.pli, .freeCount] s t ∧ (∀ p, s.tg.p = some p → x = p)
      ∧ t.pli = { s.pli with
          reception := .none
          replies := s.pli.replies ++ [.status sender (bytesOfNat 1 1 ++ bytesOfNat 1 0 ++ bytesOfNat 1 s.ownRank.val
            ++ bytesOfNat 1 s.su.station.code ++ bytesOfNat 1 s.px.state.code ++ bytesOfNat 1 s.hs.state.code
            ++ bytesOfNat 1 s.su.resetCause.code ++ bytesOfNat 4 s.clock.toNat ++ bytesOfNat 1 s.nt.view.toNat
            ++ (s.nt.entries.map (fun e =>
                bytesOfNat 1 e.rank.val ++ bytesOfNat 1 e.liveness.code ++ bytesOfNat 2 e.age)).flatten
            ++ bytesOfNat 2 s.px.index
            ++ bytesOfNat 1 ((if s.tg.p = none then 0 else 1) + (if s.tg.dir = .down then 2 else 0)
                + (if s.dp.estop then 4 else 0) + (if s.dp.clamp then 8 else 0))
            ++ bytesOfNat 4 x ++ bytesOfNat 2 s.tg.v
            ++ bytesOfNat 1 (match s.tg.p with
                | some p => ((decodeRegion s.rm p).window).getD 255
                | none => 255)
            ++ bytesOfNat 1 (match s.tg.p with
                | some p => (decodeRegion s.rm p).kind.code
                | none => 255)
            ++ bytesOfNat 1 s.px.overrideInForce ++ bytesOfNat 1 (s.px.pendingOverride.getD 0)
            ++ bytesOfNat 2 (s.hs.trim % 65536).toNat)] })
    ∧ (sec.toNat = 2 → ∃ t, exec (.statusRequestCompletion (cellFrame .statusRequest sender dest [sec, opt])) s = .next t
      ∧ Keeps [.px, .pli] s t
      ∧ t.px = { s.px with completionPending := s.px.completionPending && decide (opt.toNat % 2 = 0) }
      ∧ LineKeeps { s.pli with
          reception := .none
          replies := s.pli.replies ++ [.status sender (bytesOfNat 1 2 ++ bytesOfNat 1 0
            ++ bytesOfNat 2 s.px.completion.index ++ bytesOfNat 1 (codeOr0 EndKind.code s.px.completion.kind)
            ++ bytesOfNat 1 (codeOr0 Detail.code s.px.completion.detail)
            ++ bytesOfNat 1 (codeOr0 Detail.code s.px.completion.secondary) ++ bytesOfNat 4 s.px.completion.position
            ++ bytesOfNat 4 s.px.completion.remaining ++ bytesOfNat 1 (if s.px.completionPending then 1 else 0))] } t.pli)
    ∧ (sec.toNat = 3 → ∃ t, exec (.statusRequestAttention (cellFrame .statusRequest sender dest [sec, opt])) s = .next t
      ∧ Keeps [.su, .pli] s t
      ∧ t.su = { s.su with flags := if opt.toNat % 2 = 1 then 0 else s.su.flags }
      ∧ LineKeeps { s.pli with
          reception := .none
          replies := s.pli.replies ++ [.status sender (bytesOfNat 1 3 ++ bytesOfNat 1 0 ++ bytesOfNat 2 s.su.flags.toNat
            ++ bytesOfNat 2 (s.su.notifyIndex.getD 65535))] } t.pli)
    ∧ (sec.toNat = 4 → exec (.statusRequestJoints (cellFrame .statusRequest sender dest [sec, opt])) s = .next { s with
        pli := { s.pli with
          reception := .none
          replies := s.pli.replies ++ [.status sender (bytesOfNat 1 4 ++ bytesOfNat 1 0
            ++ bytesOfNat 1 s.ju.openList.length
            ++ (s.ju.openList.map (fun e => bytesOfNat 1 e.id ++ bytesOfNat 1 e.partner.val ++ bytesOfNat 1 e.state.code
                ++ bytesOfNat 2 e.age ++ bytesOfNat 4 e.release)).flatten
            ++ (match s.ju.awaited with
                | none => bytesOfNat 1 0
                | some a => bytesOfNat 1 1 ++ bytesOfNat 1 a.id ++ bytesOfNat 1 a.partner.val ++ bytesOfNat 4 a.entryX
                    ++ bytesOfNat 4 a.hold ++ bytesOfNat 2 a.coolDwell ++ bytesOfNat 1 a.state.code
                    ++ bytesOfNat 2 a.remaining)
            ++ bytesOfNat 1 s.ju.closedList.length ++ (s.ju.closedList.map (fun i => bytesOfNat 1 i)).flatten)] } })
    ∧ (sec.toNat = 0 ∨ 4 < sec.toNat →
      exec (.statusRequestFormat (cellFrame .statusRequest sender dest [sec, opt])) s = .next { s with
        pli := { s.pli with
          reception := .none
          replies := s.pli.replies ++ [.status sender (bytesOfNat 1 sec.toNat ++ bytesOfNat 1 2)] } })

/-! ### Station states (chapter 9) -/

/-- R19, R45, R98, R123, R139, R157, R167 to R169, R181, R189: a LINE_RESET taken with no chain and no retract from HALTED under way
gives every block its LINE RESET values in that event, and so does LINE_RESET_TAKES_EFFECT, also where no LINE_RESET came (the
model's reading of the row, log 29); the beacon is due also where nothing reported changed (log 11). During a retract from
HALTED it is held, and only the pending mark is set. In RUNNING it is obeyed first as a HALT (R93, R95) by executor state:
where the halt takes time the mark is set and the station is still RUNNING, and where the chain ends at once the LINE RESET
values come at once. A second one adds nothing. A pending one takes effect when the chain ends, in place of STOPPED, and at
the end of a retract: by its completion, where RETRACT_COMPLETE is FEEDBACK_TAKEN (log 2) and whatever fault the message
brings is reported before the reset, which leaves no mark and no flag of it (R177, R181, log 12), or by its timeout, the Z
command that is kept being ramped once more before the timeout is looked at (the model's choice, log 13); and at an emergency
stop. -/
def Obligations.LineResetTakesEffect : Prop :=
  (∀ s : State,
    (s.su.station ≠ .running → s.hs.state ≠ .retracting →
      (∃ t, exec .lineResetTakesEffect s = .next t ∧ LineResetValues s t)
      ∧ ∀ sender dest, Taken .lineReset sender dest [] s →
        ∃ t, exec (.lineReset (cellFrame .lineReset sender dest [])) s = .next t ∧ LineResetValues s t)
    ∧ (s.su.station = .running ∨ s.hs.state = .retracting → exec .lineResetTakesEffect s = .next s)
    ∧ (∀ sender dest, Taken .lineReset sender dest [] s → s.pli.changeNoted = false → s.su.station ≠ .running →
        s.hs.state = .retracting →
      exec (.lineReset (cellFrame .lineReset sender dest [])) s = .next { s with
        su := { s.su with lineResetPending := true }, pli := { s.pli with reception := .none } }))
  ∧ (∀ s : State, s.su.station = .running →
    (∀ sender dest, Taken .lineReset sender dest [] s → s.su.lineResetPending = false →
      (s.px.state = .active ∨ (s.px.state = .fetching ∧ s.px.role = .continuation) → 0 < s.tg.v ∨ s.hs.state.working = true →
        ∃ t, exec (.lineReset (cellFrame .lineReset sender dest [])) s = .next t
          ∧ Keeps [.tg, .px, .hs, .ju, .su, .pli] s t ∧ LineKeeps { s.pli with reception := .none } t.pli
          ∧ HaltSlows s t ∧ t.su = { s.su with lineResetPending := true })
      ∧ ((s.px.state = .waitSlot ∨ (s.px.state = .fetching ∧ s.px.role = .fresh)
            ∨ (s.px.state = .active ∧ s.tg.v = 0 ∧ s.hs.state = .parked)) →
        ∃ t, exec (.lineReset (cellFrame .lineReset sender dest [])) s = .next t ∧ LineResetValues s t)
      ∧ (∀ e, s.px.state = .awaitHeadEnd → s.px.decided = some e → NormalEnd e →
        ∃ t, exec (.lineReset (cellFrame .lineReset sender dest [])) s = .next t
          ∧ Keeps [.px, .su, .pli] s t ∧ LineKeeps { s.pli with reception := .none } t.pli
          ∧ t.px = { s.px with state := .halting, decided := some ⟨.halted, none⟩ }
          ∧ t.su = { s.su with lineResetPending := true })
      ∧ (s.px.state = .halting ∨ (s.px.state = .awaitHeadEnd ∧ ∃ e, s.px.decided = some e ∧ ¬ NormalEnd e) →
          s.pli.changeNoted = false →
        exec (.lineReset (cellFrame .lineReset sender dest [])) s = .next { s with
          su := { s.su with lineResetPending := true }, pli := { s.pli with reception := .none } }))
    ∧ (∀ sender dest, Taken .lineReset sender dest [] s → s.pli.changeNoted = false → s.su.lineResetPending = true →
      exec (.lineReset (cellFrame .lineReset sender dest [])) s = .next { s with pli := { s.pli with reception := .none } })
    ∧ (∀ e, s.px.state = .halting ∨ s.px.state = .awaitHeadEnd → s.px.decided = some e → ¬ NormalEnd e → s.tg.v = 0 →
        s.hs.state = .parked → s.su.lineResetPending = true →
      ∃ t, exec .recordClose s = .next t ∧ LineResetValues s t))
  ∧ ∀ s : State, s.su.lineResetPending = true →
    (s.hs.state = .retracting →
      (s.su.station ≠ .running ∧ (s.px.state = .idle ∨ s.px.state = .stopped)
        ∨ s.su.station = .running ∧ (s.px.state = .halting ∨ s.px.state = .awaitHeadEnd)
          ∧ ∃ e, s.px.decided = some e ∧ ¬ NormalEnd e) →
      (∀ m, s.dp.slot = some m → s.dp.enable = true → s.tg.p ≠ none → s.hs.zCommand = 0 → m.zClear = true → s.tg.v = 0 →
        ∃ t, exec .retractComplete s = .next t ∧ exec .feedbackTaken s = .next t
          ∧ LineResetValues { s with dp := feedbackHeld m s.dp, hs := { forceTaken m s.hs with state := .parked } } t)
      ∧ (s.constants.retractTimeout ≤ oneOn s.hs.phase →
        ∃ t, exec .retractTimeout s = .next t
          ∧ LineResetValues { s with hs := { s.hs with
              state := .halted, forceAge := oneOn s.hs.forceAge
              zCommand := if s.constants.retractRate ≤ s.hs.zCommand then s.hs.zCommand - s.constants.retractRate else 0 } } t))
    ∧ (s.dp.estop = false →
        s.su.station ≠ .running ∧ s.hs.state = .retracting ∧ (s.px.state = .idle ∨ s.px.state = .stopped)
          ∨ s.su.station = .running ∧ s.px.state ≠ .idle ∧ s.px.state ≠ .stopped →
      ∃ t, exec .emergencyStopAsserted s = .next t
        ∧ LineResetValues { s with
            dp := { s.dp with estop := true }
            hs := { s.hs with state := if s.hs.state = .parked then .parked else .halted } } t)

/-- R2, R12, R153, R161 to R163: a SETUP outside UNCONFIGURED, or whose rail limits, clamped, are not in order, sets
SETUP_IGNORED and nothing else. Otherwise each constant, brought to its range, the stale limit raised to three periods, is in
force; the view is the mask with the own rank; the entries are classed afresh; PARAM_CLAMPED is set where a value was
changed; and the station is IDLE. -/
def Obligations.SetupConfigures : Prop :=
  ∀ (s : State) (sender dest : Nat) (mask : BitVec 8) (c : Constants), c.carried →
    Taken .setup sender dest (setupPayload mask c) s →
    (s.su.station ≠ .unconfigured ∨ min c.railMax 33554431 ≤ min c.railMin 33554431 →
      ∃ t, exec (.setup (cellFrame .setup sender dest (setupPayload mask c))) s = .next t
        ∧ Keeps [.su, .pli] s t ∧ t.flag .setupIgnored = true ∧ FlagsKeep [.setupIgnored] s t
        ∧ LineKeeps { s.pli with reception := .none } t.pli)
    ∧ (s.su.station = .unconfigured → min c.railMin 33554431 < min c.railMax 33554431 →
      ∃ t, exec (.setup (cellFrame .setup sender dest (setupPayload mask c))) s = .next t
        ∧ Keeps [.constants, .nt, .su, .pli] s t
        ∧ t.constants =
          { spacing := nearest 200000 4000000 c.spacing, accel := nearest 1 32 c.accel, decel := nearest 1 32 c.decel
            beaconPeriod := nearest 2 64 c.beaconPeriod
            staleLimit := max (nearest 8 1023 c.staleLimit) (3 * nearest 2 64 c.beaconPeriod)
            railMin := min c.railMin 33554431, railMax := min c.railMax 33554431
            stirLimit := nearest 25 2500 c.stirLimit, stallLimit := nearest 250 65535 c.stallLimit
            followLimit := nearest 200 20000 c.followLimit, forceGain := c.forceGain
            maxTrimStep := nearest 1 64 c.maxTrimStep, trimLimit := min c.trimLimit 2000
            forceCeiling := nearest 500 4095 c.forceCeiling, spinUpTimeout := nearest 250 7500 c.spinUpTimeout
            plungeTimeout := nearest 250 15000 c.plungeTimeout, retractTimeout := nearest 250 7500 c.retractTimeout
            retractRate := nearest 5 255 c.retractRate }
        ∧ (∀ q : Rank, inView t.nt.view q = (inView mask q || decide (q = s.ownRank)))
        ∧ t.nt.entries = s.nt.entries.map (fun e => { e with
            liveness := if e.liveness = .absent then .absent else if t.constants.staleLimit < e.age then .silent else .live })
        ∧ t.su.station = .idle ∧ { t.su with station := s.su.station, flags := s.su.flags } = s.su
        ∧ (∀ f, f ≠ .paramClamped → t.flag f = s.flag f)
        ∧ t.flag .paramClamped = (s.flag .paramClamped || decide (t.constants ≠ c))
        ∧ LineKeeps { s.pli with
            reception := .none, periodOverrun := decide (t.constants.beaconPeriod ≤ s.pli.periodCount) } t.pli)

/-- R45, R96, R98, R120, R123, R140, R166, R173, R181: a JOB_CLEAR in RUNNING or with the emergency-stop line asserted sets
CLEAR_REFUSED and nothing else. Otherwise the joints are emptied and the Travel Governor, head and Drive Port take their JOB
CLEAR values; a HALTED head of a station IDLE or STOPPED begins its retract with the enable on; a station STOPPED with the
head PARKED becomes IDLE. -/
def Obligations.JobClearByState : Prop :=
  ∀ (s : State) (sender dest : Nat), Taken .jobClear sender dest [] s →
    (s.su.station = .running ∨ s.dp.estop = true →
      ∃ t, exec (.jobClear (cellFrame .jobClear sender dest [])) s = .next t
        ∧ Keeps [.su, .pli] s t ∧ t.flag .clearRefused = true ∧ FlagsKeep [.clearRefused] s t
        ∧ LineKeeps { s.pli with reception := .none } t.pli)
    ∧ (s.su.station ≠ .running → s.dp.estop = false → s.hs.state.working = false →
      ∃ t, exec (.jobClear (cellFrame .jobClear sender dest [])) s = .next t
        ∧ LineKeeps { s.pli with reception := .none } t.pli
        ∧ t.ju = { openList := [], currentLead := none, awaited := none, closedList := [] }
        ∧ t.tg = { p := s.tg.p, v := 0, dir := s.tg.dir, target := none, phaseOpen := false, fence := none
                   stallCount := 0, stirCount := 0, lastEnd := none, followReported := false }
        ∧ (s.su.station ≠ .unconfigured → s.hs.state = .halted →
            Keeps [.tg, .hs, .ju, .dp, .pli] s t
            ∧ t.hs = { s.hs with
                state := .retracting, phase := 0, spindle := 0, trim := 0, weld := none, retractPending := false }
            ∧ t.dp = { s.dp with enable := true, lostReported := false, driveReported := false })
        ∧ (s.su.station = .unconfigured ∨ s.hs.state ≠ .halted →
            t.hs = { s.hs with trim := 0, weld := none, retractPending := false }
            ∧ t.dp = { s.dp with lostReported := false, driveReported := false })
        ∧ (s.su.station = .stopped → s.hs.state = .parked → Keeps [.tg, .hs, .ju, .dp, .px, .su, .pli] s t
            ∧ t.su = { s.su with station := .idle } ∧ t.px = { s.px with state := .idle })
        ∧ (s.su.station = .stopped → s.hs.state = .retracting → Keeps [.tg, .hs, .ju, .dp, .pli] s t)
        ∧ (s.su.station = .idle ∨ s.su.station = .unconfigured → Keeps [.tg, .hs, .ju, .dp, .pli] s t))

/-! ### The Pass Executor (chapter 5) -/

/-- R40, R73, R75, R164, R173, R181: a JOB_START that does not name the own rank does nothing. One that does is refused with
START_REFUSED alone unless the station is IDLE, no completion is pending, the head is PARKED and the index is at most 511.
An accepted one makes the station RUNNING and begins the fetch of its index in the fresh role: pending override and record
taken, NOTIFY acted on; the reported marks are no, and the enable goes on with the emergency-stop line released. The fetch is
then in progress (log 5). -/
def Obligations.JobStartJudged : Prop :=
  ∀ (s : State) (sender dest : Nat) (payload : List Byte), Taken .jobStart sender dest payload s →
    (bitOf (fieldAt payload 0 1) s.ownRank.val = false → s.pli.changeNoted = false →
      exec (.jobStart (cellFrame .jobStart sender dest payload)) s = .next { s with
        pli := { s.pli with reception := .none } })
    ∧ ∀ i, bitOf (fieldAt payload 0 1) s.ownRank.val = true → fieldAt payload (1 + 2 * s.ownRank.val) 2 = i →
      (s.su.station ≠ .idle ∨ s.px.completionPending = true ∨ s.hs.state ≠ .parked ∨ 511 < i →
        ∃ t, exec (.jobStart (cellFrame .jobStart sender dest payload)) s = .next t
          ∧ Keeps [.su, .pli] s t ∧ t.flag .startRefused = true ∧ FlagsKeep [.startRefused] s t
          ∧ LineKeeps { s.pli with reception := .none } t.pli)
      ∧ (s.su.station = .idle → s.px.completionPending = false → s.hs.state = .parked → i ≤ 511 →
        ∃ t, exec (.jobStart (cellFrame .jobStart sender dest payload)) s = .next t
          ∧ Keeps [.tg, .px, .hs, .dp, .su, .pli] s t ∧ LineKeeps { s.pli with reception := .none } t.pli
          ∧ Notified (readRecord s.pm i) i [] { s with su := { s.su with station := .running } } t
          ∧ t.tg = { s.tg with followReported := false }
          ∧ t.dp = { s.dp with lostReported := false, driveReported := false, enable := s.dp.enable || !s.dp.estop }
          ∧ t.hs = { s.hs with zCommand := if s.dp.estop then s.hs.zCommand else 0 }
          ∧ t.px = { fetchBegun .fresh i s with secondary := none, firstRecord := true })

/-- R22, R23, R76, R78, R81, R82, R101, R102, R125, R131: a record that passes its checks, be it the target of a BRANCH,
starts when its fetch ends, here by RECORD_CLOSE (log 5), with the emergency-stop line released, whatever the drive demand
enable (log 36). MOVE and DRY: the target given, the travel phase open. PAUSE: the count set, and the stall counter 0 as at
every record start. A fresh WELD, the clamps made: the target given with the travel phase closed, its lead entry and awaited
joint created, the latter evaluated at once, and the head SPINNING_UP; with the clamps open its record closes FAULT with
CLAMP_OPEN. A continuation: the target given with the travel phase open, the head STIRRING with the new rpm, setpoint and
CONTINUE setting. A fresh WELD with a lead part that finds the Open Joint List full waits in WAIT_SLOT, whatever the line (log
16). With the emergency-stop line asserted any other record ends its chain with ESTOP instead. -/
def Obligations.RecordStarts : Prop :=
  ∀ (s : State) (r : PassRecord) (i : Nat) (k : RecordKind), s.px.state = .fetching → WorksFrom s r i → r.kind = some k →
    k ≠ .branch → Passes s k r → s.su.lineResetPending = false →
    ∃ t, exec .recordClose s = .next t ∧ LineKeeps s.pli t.pli
      ∧ (Branches s → t.su.notifyIndex = (if r.notify then some i else s.su.notifyIndex)
        ∧ t.flag .notify = (s.flag .notify || r.notify))
      ∧ (¬ Branches s → t.su.notifyIndex = s.su.notifyIndex ∧ t.flag .notify = s.flag .notify)
      ∧ ((k = .weld ∧ s.px.role = .fresh ∧ r.leadId ≠ 0 ∧ 4 ≤ s.ju.openList.length) →
          Keeps [.px, .su, .pli] s t ∧ FlagsKeep [.notify] s { t with su := { t.su with notifyIndex := s.su.notifyIndex } }
          ∧ t.px = recordPassed .waitSlot k r i s)
      ∧ (¬ (k = .weld ∧ s.px.role = .fresh ∧ r.leadId ≠ 0 ∧ 4 ≤ s.ju.openList.length) →
          (s.dp.estop = true → t.su.station = .stopped
            ∧ ∃ x, (∀ p, s.tg.p = some p → x = p)
              ∧ t.px = executorAfter .stopped ⟨.estop, none⟩ s.px.secondary x (if k = .pause then 0 else distance r.endPos x)
                  { s with px := { s.px with index := i } })
          ∧ (s.dp.estop = false →
            (k = .move ∨ k = .dry → ∀ p, s.tg.p = some p → Keeps [.tg, .px, .su, .pli] s t
              ∧ t.px = recordPassed .active k r i s
              ∧ t.tg = targetGiven (if k = .move then .move else .dry) r (towards p r.endPos s.tg.dir) true s.tg)
            ∧ (k = .pause → Keeps [.tg, .px, .su, .pli] s t ∧ t.tg = { s.tg with stallCount := 0 }
              ∧ t.px = { recordPassed .active k r i s with pauseCount := r.rate })
            ∧ (k = .weld → s.px.role = .fresh → s.hs.state = .parked → s.dp.clamp = true → s.su.station = .running →
              Keeps [.tg, .px, .hs, .ju, .su, .pli] s t ∧ t.px = recordPassed .active k r i s
              ∧ t.tg = targetGiven .weld r (towards r.start r.endPos s.tg.dir) false s.tg ∧ t.hs = headBegun r s.hs
              ∧ t.ju.closedList = s.ju.closedList
              ∧ (r.leadId = 0 → t.ju.openList = s.ju.openList ∧ t.ju.currentLead = s.ju.currentLead)
              ∧ (∀ q, r.leadId ≠ 0 → rankBehind s (weldHeading s r) = some q → t.ju.currentLead = some r.leadId
                ∧ t.ju.openList = s.ju.openList ++ [leadEntry r q (weldHeading s r)])
              ∧ Awaits r (rankAhead s (weldHeading s r)) (weldHeading s r) s t.ju.awaited)
            ∧ (∀ p, k = .weld → s.px.role = .fresh → s.hs.state = .parked → s.dp.clamp = false → s.tg.p = some p →
              t.hs = s.hs ∧ t.su.station = .stopped ∧ t.flag .fault = true
              ∧ t.px = executorAfter .stopped ⟨.fault, some .clampOpen⟩ s.px.secondary p (distance r.endPos p)
                  { s with px := { s.px with index := i } })
            ∧ (∀ w, k = .weld → s.px.role = .continuation → s.hs.state = .stirring → s.hs.weld = some w →
              Keeps [.tg, .px, .hs, .ju, .su, .pli] s t ∧ t.px = recordPassed .active k r i s
              ∧ t.tg = targetGiven .weld r s.tg.dir true s.tg
              ∧ t.hs = { s.hs with
                  spindle := r.rpm, weld := some { w with rpm := r.rpm, setpoint := r.setpoint, cont := r.cont } }
              ∧ t.ju.closedList = s.ju.closedList ∧ t.ju.openList = s.ju.openList ∧ t.ju.currentLead = s.ju.currentLead
              ∧ Awaits r (rankAhead s s.tg.dir) s.tg.dir s t.ju.awaited)))

/-- R57, R58, R64, R76 to R79, R91, R92: the checks of a fetch in both roles, made when the fetch ends, here by RECORD_CLOSE
(log 5). A BRANCH that is the chain's first record fails BRANCH_FIRST; a target above 511 fails FIELD_RANGE at the BRANCH's
index, a target that is a BRANCH fails BRANCH_TO_BRANCH. The record that does the work fails INVALID_KIND for INVALID and
unknown kinds, or with the first of the eleven checks of R77 and R78 that fails. The release distance of a lead part is
checked for its range in both roles, so a continuation with a lead id and a release distance of 0 fails FIELD_RANGE and not
the JOINT_GEOMETRY of R58 and R64 (the model's reading, log 17). In the fresh role the chain ends at once with PROGRAM_CHECK
and the detail; in the continuation role the head, STIRRING at v 0, goes RETRACTING and the end is awaited. -/
def Obligations.FetchChecksInOrder : Prop :=
  ∀ s : State, s.px.state = .fetching → s.su.lineResetPending = false →
    ∃ t, exec .recordClose s = .next t ∧ LineKeeps s.pli t.pli
      ∧ ∀ (r : PassRecord) (i : Nat) (d : Detail),
        (WorksFrom s r i ∧ FailsWith s r d
          ∨ WorksFrom s r i ∧ Branches s ∧ r.kind = some .branch ∧ d = .branchToBranch
          ∨ s.px.record = some r ∧ r.kind = some .branch ∧ i = s.px.index
            ∧ (s.px.firstRecord = true ∧ d = .branchFirst
              ∨ s.px.firstRecord = false ∧ 511 < r.rate ∧ d = .fieldRange)) →
        t.flag .programCheck = true ∧ t.tg = withdrawn s.tg
          ∧ (s.px.role = .fresh → Keeps [.tg, .px, .ju, .su, .freeCount, .pli] s t ∧ t.su.station = .stopped
            ∧ t.ju = afterClose .programCheck s.ju
            ∧ ∃ x, (∀ p, s.tg.p = some p → x = p)
              ∧ t.px = executorAfter .stopped ⟨.programCheck, some d⟩ s.px.secondary x 0
                  { s with px := { s.px with index := i } })
          ∧ (s.px.role = .continuation → s.hs.state = .stirring → s.tg.v = 0 →
            Keeps [.tg, .px, .hs, .ju, .su, .pli] s t ∧ LeftStirring s t.ju
            ∧ t.hs = { s.hs with state := .retracting, phase := 0, spindle := 0, trim := 0 }
            ∧ t.px = { s.px with
                state := .awaitHeadEnd, decided := some ⟨.programCheck, some d⟩, index := i, record := some r
                firstRecord := false, passed := false })

/-- R22, R64, R65, R78, R82, R100, R101, R125, R131: a WELD with a lead part, held in WAIT_SLOT, starts when the Open Joint
List has room and the emergency-stop line is released, whatever the drive demand enable (log 36): ACTIVE, its target given
with the travel phase closed, the carriage's direction that from p to its end, its lead entry created PENDING as the newest
and its trail part awaited, both in the direction from its start to its end (log 34), and, the clamps made, the head
SPINNING_UP with its parameters. With the clamps open the record closes FAULT with CLAMP_OPEN, its entry VOID and JOINT_VOIDED
set (log 15); with the line asserted the chain ends ESTOP; with the list full it waits on, whatever the line (log 16). That
HELD_RECORD_START stands alone is log 29. -/
def Obligations.HeldRecordStarts : Prop :=
  ∀ (s : State) (r : PassRecord) (q : Rank) (p : Nat), s.px.state = .waitSlot → s.px.record = some r → s.px.role = .fresh →
    s.px.passed = true → r.kind = some .weld → r.leadId ≠ 0 → r.leadId ∉ s.ju.openList.map (fun e => e.id) →
    s.px.leadPartner = some q → (r.trailId ≠ 0 → s.px.trailPartner ≠ none) → s.ju.awaited = none → s.hs.state = .parked →
    s.su.station = .running → s.tg.p = some p → s.su.lineResetPending = false →
    (4 ≤ s.ju.openList.length → s.pli.changeNoted = false → exec .heldRecordStart s = .next s)
    ∧ (s.ju.openList.length < 4 → s.dp.estop = false → s.dp.clamp = true →
      ∃ t, exec .heldRecordStart s = .next t
        ∧ Keeps [.tg, .px, .hs, .ju, .pli] s t ∧ LineKeeps s.pli t.pli
        ∧ t.px = { s.px with state := .active }
        ∧ t.tg = targetGiven .weld r (towards p r.endPos s.tg.dir) false s.tg
        ∧ t.ju.openList = s.ju.openList ++ [leadEntry r q (towards r.start r.endPos s.tg.dir)]
        ∧ t.ju.currentLead = some r.leadId ∧ t.ju.closedList = s.ju.closedList
        ∧ Awaits r s.px.trailPartner (towards r.start r.endPos s.tg.dir) s t.ju.awaited
        ∧ t.hs = headBegun r s.hs)
    ∧ (s.ju.openList.length < 4 → s.dp.estop = false → s.dp.clamp = false →
      ∃ t, exec .heldRecordStart s = .next t
        ∧ Keeps [.tg, .px, .ju, .su, .pli] s t ∧ LineKeeps s.pli t.pli
        ∧ t.su.station = .stopped ∧ t.flag .fault = true ∧ t.flag .jointVoided = true
        ∧ t.px = executorAfter .stopped ⟨.fault, some .clampOpen⟩ s.px.secondary p (distance r.endPos p) s
        ∧ t.ju.currentLead = none ∧ t.ju.awaited = none
        ∧ t.ju.closedList = (if r.trailId = 0 then s.ju.closedList else pushClosed r.trailId s.ju.closedList)
        ∧ t.ju.openList.map (fun e => e.id) = s.ju.openList.map (fun e => e.id) ++ [r.leadId]
        ∧ ∀ e ∈ t.ju.openList, e.id = r.leadId → e.state = .void)
    ∧ (s.ju.openList.length < 4 → s.dp.estop = true → s.ju.currentLead = none →
      ∃ t, exec .heldRecordStart s = .next t
        ∧ Keeps [.tg, .px, .su, .pli] s t ∧ LineKeeps s.pli t.pli ∧ t.su = { s.su with station := .stopped }
        ∧ t.tg = withdrawn s.tg
        ∧ t.px = executorAfter .stopped ⟨.estop, none⟩ s.px.secondary p (distance r.endPos p) s)

/-- R89 to R92, R128, R135: a record with a decided end closes once v is 0 and the head PARKED. A stopping cause ends the
chain STOPPED; a normal end that no flag carries on ends it IDLE; the completion record is written whole and completion
pending set; a PENDING lead is READY after COMPLETE and VOID, with JOINT_VOIDED, after any other end; the awaited joint's id
is pushed. A carriage not at rest waits. -/
def Obligations.RecordCloseEndsChain : Prop :=
  ∀ (s : State) (r : PassRecord) (e : Decision), (s.px.state = .awaitHeadEnd ∨ s.px.state = .halting) →
    s.px.decided = some e → s.px.record = some r →
    (0 < s.tg.v ∨ s.hs.state ≠ .parked → s.pli.changeNoted = false → exec .recordClose s = .next s)
    ∧ (∀ p, s.tg.v = 0 → s.hs.state = .parked → s.tg.p = some p → s.su.lineResetPending = false →
        (e.kind = .complete → r.chain = false ∧ r.cont = false) →
        (e.kind = .short → r.tolerate = false ∨ (r.chain = false ∧ r.cont = false)) →
        (e.kind = .voidAlt → r.chain = false ∧ r.cont = false) →
      ∃ t, exec .recordClose s = .next t
        ∧ Keeps [.tg, .px, .ju, .su, .pli] s t ∧ LineKeeps s.pli t.pli
        ∧ t.tg = withdrawn s.tg ∧ t.ju = afterClose e.kind s.ju
        ∧ (∀ f, f ≠ .jointVoided → t.flag f = s.flag f)
        ∧ (t.flag .jointVoided = true ↔ s.flag .jointVoided = true ∨ (e.kind ≠ .complete
            ∧ ∃ x ∈ s.ju.openList, s.ju.currentLead = some x.id ∧ x.state = .pending))
        ∧ ∃ d, (s.px.passed = true → r.kind = some .weld ∨ r.kind = some .dry ∨ r.kind = some .move → d = distance r.endPos p)
          ∧ (s.px.passed = false ∨ r.kind = some .pause → d = 0)
          ∧ (e.kind = .complete ∨ e.kind = .short ∨ e.kind = .voidAlt →
              t.su.station = .idle ∧ t.px = executorAfter .idle e s.px.secondary p d s)
          ∧ (e.kind ≠ .complete → e.kind ≠ .short → e.kind ≠ .voidAlt →
              t.su.station = .stopped ∧ t.px = executorAfter .stopped e s.px.secondary p d s))

/-- R74, R75, R76, R79, R89: where the flags carry a chain on, the next record is fetched fresh: index + 1 after COMPLETE with
CHAIN, or after a tolerated SHORT; index + 2 after VOID_ALT with CHAIN or CONTINUE; with the override adopted. An index of 512
or more fails with INDEX_RANGE, the active index staying as it was. R84, R102, R110: a WELD with CONTINUE set that reports its
path end closes at once with the head STIRRING, its trim kept, and index + 1 is fetched as a continuation; on record 511 that
fetch fails with INDEX_RANGE: the head goes RETRACTING and the end is awaited. Every other fetch is left in progress (the
model's choice, log 5). -/
def Obligations.ChainGoesOn : Prop :=
  (∀ (s : State) (r : PassRecord) (e : Decision) (i p : Nat), s.px.state = .awaitHeadEnd → s.px.decided = some e →
    s.px.record = some r → r.kind = some .weld → s.tg.v = 0 → s.hs.state = .parked → s.tg.p = some p →
    s.su.lineResetPending = false →
    (e.kind = .complete ∧ r.chain = true ∧ r.cont = false ∧ i = s.px.index + 1
      ∨ e.kind = .short ∧ r.tolerate = true ∧ (r.chain = true ∨ r.cont = true) ∧ i = s.px.index + 1
      ∨ e.kind = .voidAlt ∧ (r.chain = true ∨ r.cont = true) ∧ i = s.px.index + 2) →
    ∃ t, exec .recordClose s = .next t ∧ Keeps [.tg, .px, .ju, .su, .pli] s t ∧ LineKeeps s.pli t.pli
      ∧ t.tg = withdrawn s.tg ∧ t.ju = afterClose e.kind s.ju ∧ NextFetched i p s t)
  ∧ ∀ (s : State) (r : PassRecord) (m : MotionTarget) (w : WeldParams) (p : Nat), s.px.state = .active →
    s.px.record = some r → r.kind = some .weld → r.cont = true → s.tg.target = some m → m.kind = .weld → m.endPos = p →
    s.tg.p = some p → s.tg.lastEnd = some p → s.tg.phaseOpen = true → s.tg.v ≤ s.constants.decel →
    s.hs.state = .stirring → s.hs.weld = some w → w.cont = true →
    ∃ t, exec .travelComputation s = .next t ∧ LineKeeps s.pli t.pli
      ∧ t.tg = { withdrawn s.tg with v := 0, fence := some p } ∧ t.ju = afterClose .complete s.ju
      ∧ (s.px.index < 511 → Keeps [.tg, .px, .ju, .su, .pli] s t
        ∧ Notified (readRecord s.pm (s.px.index + 1)) (s.px.index + 1) [.fenceIntrusion] s t
        ∧ t.px = fetchBegun .continuation (s.px.index + 1) s)
      ∧ (511 ≤ s.px.index → Keeps [.tg, .px, .hs, .ju, .su, .pli] s t ∧ t.flag .programCheck = true
        ∧ FlagsKeep [.fenceIntrusion, .programCheck] s t
        ∧ t.hs = { s.hs with state := .retracting, phase := 0, spindle := 0, trim := 0 }
        ∧ t.px = { s.px with
            state := .awaitHeadEnd, role := .continuation, decided := some ⟨.programCheck, some .indexRange⟩
            record := none, passed := false, firstRecord := false })

/-- R73, R80, R82, R93, R94, R114: a HALT by executor state. IDLE, STOPPED, HALTING, or a stopping cause decided: nothing.
WAIT_SLOT, a fresh fetch, or a record with the carriage at rest and the head PARKED: the chain ends HALTED. An ACTIVE record
otherwise: HALTING, the target withdrawn; a head STIRRING with v above 0 keeps stirring with the retract pending, any other
working head goes RETRACTING, as it does where a continuation's fetch is abandoned. An abandoned fetch leaves its index, that of
the BRANCH where it read one (the model's choice, log 5). A normal end that waits for the head becomes HALTED. -/
def Obligations.HaltByState : Prop :=
  ∀ (s : State) (sender dest : Nat), Taken .halt sender dest [] s →
    (s.px.state = .idle ∨ s.px.state = .stopped ∨ s.px.state = .halting
        ∨ (s.px.state = .awaitHeadEnd
          ∧ ∃ e, s.px.decided = some e ∧ e.kind ≠ .complete ∧ e.kind ≠ .short ∧ e.kind ≠ .voidAlt) →
        s.pli.changeNoted = false →
      exec (.halt (cellFrame .halt sender dest [])) s = .next { s with pli := { s.pli with reception := .none } })
    ∧ ((s.px.state = .waitSlot ∨ (s.px.state = .fetching ∧ s.px.role = .fresh)
        ∨ (s.px.state = .active ∧ s.tg.v = 0 ∧ s.hs.state = .parked)) → s.su.lineResetPending = false →
      ∃ t, exec (.halt (cellFrame .halt sender dest [])) s = .next t
        ∧ Keeps [.tg, .px, .ju, .su, .freeCount, .pli] s t ∧ LineKeeps { s.pli with reception := .none } t.pli
        ∧ t.su.station = .stopped ∧ t.tg = withdrawn s.tg ∧ t.ju = afterClose .halted s.ju
        ∧ ∃ x d, (∀ p, s.tg.p = some p → x = p)
          ∧ t.px = executorAfter .stopped ⟨.halted, none⟩ s.px.secondary x d s)
    ∧ (s.px.state = .active ∨ (s.px.state = .fetching ∧ s.px.role = .continuation) → 0 < s.tg.v ∨ s.hs.state.working = true →
      ∃ t, exec (.halt (cellFrame .halt sender dest [])) s = .next t
        ∧ Keeps [.tg, .px, .hs, .ju, .pli] s t ∧ LineKeeps { s.pli with reception := .none } t.pli ∧ HaltSlows s t)
    ∧ (∀ e, s.px.state = .awaitHeadEnd → s.px.decided = some e →
        e.kind = .complete ∨ e.kind = .short ∨ e.kind = .voidAlt →
      ∃ t, exec (.halt (cellFrame .halt sender dest [])) s = .next t
        ∧ Keeps [.px, .pli] s t ∧ LineKeeps { s.pli with reception := .none } t.pli
        ∧ t.px = { s.px with state := .halting, decided := some ⟨.halted, none⟩ })
end

