-- ==== Sys2Proof/Laws/Bytes.lean ====
section
/-! SUPPORT. Bytes and numbers, the check sequence, and frames: what a frame's bytes are read as. -/

namespace Sys2Proof.Machine

/-! ### Byte order -/

@[simp] theorem length_bytesOfNat (k n : Nat) : (bytesOfNat k n).length = k := by
  induction k generalizing n with
  | zero => rfl
  | succ k ih => simp [bytesOfNat, ih]

theorem foldl_bytes (bs : List Byte) (a : Nat) :
    bs.foldl (fun acc b => 256 * acc + b.toNat) a = a * 256 ^ bs.length + natOfBytes bs := by
  induction bs generalizing a with
  | nil => simp [natOfBytes]
  | cons b bs ih =>
    simp only [natOfBytes, List.foldl_cons, List.length_cons]
    rw [ih, ih (256 * 0 + b.toNat), pow_succ]
    ring

theorem natOfBytes_append (xs ys : List Byte) :
    natOfBytes (xs ++ ys) = natOfBytes xs * 256 ^ ys.length + natOfBytes ys := by
  rw [natOfBytes, List.foldl_append, ← natOfBytes, foldl_bytes]

@[simp] theorem natOfBytes_nil : natOfBytes [] = 0 := rfl

@[simp] theorem natOfBytes_singleton (b : Byte) : natOfBytes [b] = b.toNat := by simp [natOfBytes]

theorem natOfBytes_cons (b : Byte) (bs : List Byte) : natOfBytes (b :: bs) = b.toNat * 256 ^ bs.length + natOfBytes bs := by
  simpa using natOfBytes_append [b] bs

theorem natOfBytes_lt (bs : List Byte) : natOfBytes bs < 256 ^ bs.length := by
  induction bs with
  | nil => simp
  | cons b bs ih =>
    have hb := b.isLt
    rw [natOfBytes_cons, List.length_cons, pow_succ]
    nlinarith [Nat.pow_pos (n := bs.length) (show 0 < 256 by norm_num)]

theorem natOfBytes_bytesOfNat (k n : Nat) : natOfBytes (bytesOfNat k n) = n % 256 ^ k := by
  induction k generalizing n with
  | zero => simp [bytesOfNat, Nat.mod_one]
  | succ k ih =>
    rw [bytesOfNat, natOfBytes_append, ih, natOfBytes_singleton, List.length_singleton, pow_one, BitVec.toNat_ofNat,
      show (256 : Nat) ^ (k + 1) = 256 * 256 ^ k from pow_succ' 256 k, Nat.mod_mul]
    norm_num
    ring

/-- A number that fits is read back. -/
theorem natOfBytes_bytesOfNat_of_lt {k n : Nat} (h : n < 256 ^ k) : natOfBytes (bytesOfNat k n) = n := by
  rw [natOfBytes_bytesOfNat, Nat.mod_eq_of_lt h]

/-- A field that stands in the bytes is read. -/
theorem fieldAt_append (xs ys zs : List Byte) : fieldAt (xs ++ ys ++ zs) xs.length ys.length = natOfBytes ys := by
  unfold fieldAt
  rw [if_pos (by simp), List.append_assoc, List.drop_left, List.take_left]

theorem fieldAt_of_eq {bs xs ys zs : List Byte} {off len : Nat} (h : bs = xs ++ ys ++ zs) (ho : xs.length = off)
    (hl : ys.length = len) : fieldAt bs off len = natOfBytes ys := by
  subst h; subst ho; subst hl
  exact fieldAt_append xs ys zs

/-! ### The check sequence -/

@[simp] theorem forced_eq {α : Type} (n : Nat) (f : Nat → α) : forced n f = f n := by
  cases n <;> rfl

theorem xor_lt_65536 {a b : Nat} (ha : a < 65536) (hb : b < 65536) : Nat.xor a b < 65536 :=
  Nat.xor_lt_two_pow (n := 16) ha hb

theorem crcStep_lt {r : Nat} (h : r < 65536) : (if r < 32768 then 2 * r else Nat.xor (2 * r) 0x11021) < 65536 := by
  split
  · omega
  · have hb : Nat.testBit (2 * r) 16 = true := by
      simp only [Nat.testBit, Nat.shiftRight_eq_div_pow, Nat.one_and_eq_mod_two]
      have : 2 * r / 2 ^ 16 = 1 := by omega
      rw [this]
      rfl
    have hlt : Nat.xor (2 * r) 0x11021 < 2 ^ 17 := Nat.xor_lt_two_pow (n := 17) (by omega) (by norm_num)
    by_contra hge
    have h1 : Nat.testBit (Nat.xor (2 * r) 0x11021) 16 = true := by
      simp only [Nat.testBit, Nat.shiftRight_eq_div_pow, Nat.one_and_eq_mod_two]
      have : Nat.xor (2 * r) 0x11021 / 2 ^ 16 = 1 := by omega
      rw [this]
      rfl
    have h2 : Nat.testBit (Nat.xor (2 * r) 0x11021) 16 = ((2 * r).testBit 16 ^^ (0x11021 : Nat).testBit 16) :=
      Nat.testBit_xor _ _ _
    rw [h1, hb] at h2
    exact absurd h2 (by decide)

theorem crcBits_lt (k : Nat) {r : Nat} (h : r < 65536) : crcBits k r < 65536 := by
  induction k generalizing r with
  | zero => exact h
  | succ k ih => rw [crcBits, forced_eq]; exact ih (crcStep_lt h)

theorem crcBytes_lt (bs : List Byte) {r : Nat} (h : r < 65536) : crcBytes bs r < 65536 := by
  induction bs generalizing r with
  | nil => exact h
  | cons b bs ih =>
    rw [crcBytes, forced_eq]
    exact ih (crcBits_lt 8 (xor_lt_65536 h (by have := b.isLt; omega)))

theorem checkOf_lt (bs : List Byte) : checkOf bs < 256 ^ 2 :=
  crcBytes_lt bs (by norm_num)

theorem natOfBytes_check (bs : List Byte) : natOfBytes (bytesOfNat 2 (checkOf bs)) = checkOf bs :=
  natOfBytes_bytesOfNat_of_lt (checkOf_lt bs)

/-! ### Frames -/

theorem toNat_ofNat_of_lt {n : Nat} (h : n < 256) : (BitVec.ofNat 8 n).toNat = n := by
  simpa using h

/-- The bytes of a frame that a receiver can hold are read as that frame. -/
theorem parseFrame_frameBytes {cls sender dest kind : Nat} {payload : List Byte} (hc : cls < 4) (hs : sender < 64)
    (hd : dest < 256) (hk : kind < 256) (hp : payload.length ≤ Config.longestPayload) :
    parseFrame (frameBytes cls sender dest kind payload)
      = some { cls := cls, sender := sender, dest := dest, kindCode := kind, payload := payload } := by
  have hl : payload.length < 256 := Nat.lt_of_le_of_lt hp (by decide)
  unfold frameBytes withCheck
  simp only [List.cons_append, List.nil_append]
  unfold parseFrame
  simp only [toNat_ofNat_of_lt hl, toNat_ofNat_of_lt hd, toNat_ofNat_of_lt hk, toNat_ofNat_of_lt (show 64 * cls + sender < 256 by omega)]
  rw [if_neg (by omega), if_neg (by simp), if_neg, List.take_left]
  · congr 2 <;> omega
  · rw [List.drop_left, List.take_left, natOfBytes_check]
    simp

/-- A frame that is taken reaches its owner as sent (R146 to R148). -/
theorem frameTaken_of_taken {k : FrameKind} {sender dest : Nat} {payload : List Byte} {s : State}
    (h : Taken k sender dest payload s) :
    frameTaken k (cellFrame k sender dest payload) s
      = some { cls := k.cls, sender := sender, dest := dest, kindCode := k.code, payload := payload } := by
  obtain ⟨hcell, h8, h15, hdest, hlen, hlong, hrec, hreply⟩ := h
  have hown : s.ownRank.val < 8 := s.ownRank.isLt
  have hd : dest < 256 := by rcases hdest with h | h <;> omega
  unfold frameTaken cellFrame
  rw [if_neg hrec, parseFrame_frameBytes (by cases k <;> decide) (by omega) hd (by cases k <;> decide) hlong]
  have hk : FrameKind.ofCode k.code = some k := by cases k <;> rfl
  have hf : filtered s.ownRank (repliesFull s)
      { cls := k.cls, sender := sender, dest := dest, kindCode := k.code, payload := payload } = false := by
    have hfull : k.answered = true → repliesFull s = false := by
      intro ha
      simpa [repliesFull] using hreply ha
    unfold filtered
    simp only [hk]
    rw [if_neg (by omega)]
    cases k <;> simp_all [FrameKind.fromCell, FrameKind.answered, FrameKind.fixedLength] <;> omega
  simp [hf, hk]

/-- The command of a frame that is taken: the owner acts on the frame as sent, and the event's changes are reported. -/
theorem onFrame_of_taken {k : FrameKind} {sender dest : Nat} {payload : List Byte} {s : State}
    (h : Taken k sender dest payload s) (act : ReceivedFrame → State → State) :
    onFrame k (cellFrame k sender dest payload) act s
      = settle (act { cls := k.cls, sender := sender, dest := dest, kindCode := k.code, payload := payload }
          (receptionEnds s)) := by
  unfold onFrame
  rw [frameTaken_of_taken h]

/-- A beacon frame reaches the Neighbour Table as sent (R147). -/
theorem onFrame_of_beaconTaken {sender : Rank} {dest : Byte} {payload : List Byte} {s : State}
    (h : BeaconTaken payload s) (act : ReceivedFrame → State → State) :
    onFrame .beacon (beaconFrame sender dest payload) act s
      = settle (act { cls := 2, sender := sender.val, dest := dest.toNat, kindCode := 16, payload := payload }
          (receptionEnds s)) := by
  obtain ⟨hlong, hrec⟩ := h
  have hs : sender.val < 8 := sender.isLt
  have hd : dest.toNat < 256 := dest.isLt
  unfold onFrame frameTaken beaconFrame
  rw [if_neg hrec, parseFrame_frameBytes (by decide) (by omega) hd (by decide) hlong]
  have hf : filtered s.ownRank (repliesFull s)
      { cls := FrameKind.beacon.cls, sender := sender.val, dest := dest.toNat, kindCode := FrameKind.beacon.code,
        payload := payload } = false := by
    unfold filtered
    simp only [show FrameKind.ofCode FrameKind.beacon.code = some FrameKind.beacon from rfl]
    rw [if_neg (by omega)]
    simp [FrameKind.fromCell, FrameKind.answered, FrameKind.fixedLength]
  have hk : FrameKind.ofCode FrameKind.beacon.code = some FrameKind.beacon := rfl
  simp only [hf, hk]
  rfl

end Sys2Proof.Machine
end

