-- ==== Sys2Proof/Laws/State.lean ====
section
/-! SUPPORT. Each field after each block's update: the field that was set reads as set, every other as before. -/

namespace Sys2Proof.Machine

@[simp] theorem State.withNt_ownRank (s : State) (x : NeighbourTable) : (s.withNt x).ownRank = s.ownRank := rfl
@[simp] theorem State.withNt_clock (s : State) (x : NeighbourTable) : (s.withNt x).clock = s.clock := rfl
@[simp] theorem State.withNt_constants (s : State) (x : NeighbourTable) : (s.withNt x).constants = s.constants := rfl
@[simp] theorem State.withNt_nt (s : State) (x : NeighbourTable) : (s.withNt x).nt = x := rfl
@[simp] theorem State.withNt_rm (s : State) (x : NeighbourTable) : (s.withNt x).rm = s.rm := rfl
@[simp] theorem State.withNt_tg (s : State) (x : NeighbourTable) : (s.withNt x).tg = s.tg := rfl
@[simp] theorem State.withNt_pm (s : State) (x : NeighbourTable) : (s.withNt x).pm = s.pm := rfl
@[simp] theorem State.withNt_px (s : State) (x : NeighbourTable) : (s.withNt x).px = s.px := rfl
@[simp] theorem State.withNt_hs (s : State) (x : NeighbourTable) : (s.withNt x).hs = s.hs := rfl
@[simp] theorem State.withNt_ju (s : State) (x : NeighbourTable) : (s.withNt x).ju = s.ju := rfl
@[simp] theorem State.withNt_dp (s : State) (x : NeighbourTable) : (s.withNt x).dp = s.dp := rfl
@[simp] theorem State.withNt_su (s : State) (x : NeighbourTable) : (s.withNt x).su = s.su := rfl
@[simp] theorem State.withNt_pli (s : State) (x : NeighbourTable) : (s.withNt x).pli = s.pli := rfl
@[simp] theorem State.withNt_freeCount (s : State) (x : NeighbourTable) : (s.withNt x).freeCount = s.freeCount := rfl
@[simp] theorem State.withNt_pending (s : State) (x : NeighbourTable) : (s.withNt x).pending = s.pending := rfl

@[simp] theorem State.withTg_ownRank (s : State) (x : TravelGovernor) : (s.withTg x).ownRank = s.ownRank := rfl
@[simp] theorem State.withTg_clock (s : State) (x : TravelGovernor) : (s.withTg x).clock = s.clock := rfl
@[simp] theorem State.withTg_constants (s : State) (x : TravelGovernor) : (s.withTg x).constants = s.constants := rfl
@[simp] theorem State.withTg_nt (s : State) (x : TravelGovernor) : (s.withTg x).nt = s.nt := rfl
@[simp] theorem State.withTg_rm (s : State) (x : TravelGovernor) : (s.withTg x).rm = s.rm := rfl
@[simp] theorem State.withTg_tg (s : State) (x : TravelGovernor) : (s.withTg x).tg = x := rfl
@[simp] theorem State.withTg_pm (s : State) (x : TravelGovernor) : (s.withTg x).pm = s.pm := rfl
@[simp] theorem State.withTg_px (s : State) (x : TravelGovernor) : (s.withTg x).px = s.px := rfl
@[simp] theorem State.withTg_hs (s : State) (x : TravelGovernor) : (s.withTg x).hs = s.hs := rfl
@[simp] theorem State.withTg_ju (s : State) (x : TravelGovernor) : (s.withTg x).ju = s.ju := rfl
@[simp] theorem State.withTg_dp (s : State) (x : TravelGovernor) : (s.withTg x).dp = s.dp := rfl
@[simp] theorem State.withTg_su (s : State) (x : TravelGovernor) : (s.withTg x).su = s.su := rfl
@[simp] theorem State.withTg_pli (s : State) (x : TravelGovernor) : (s.withTg x).pli = s.pli := rfl
@[simp] theorem State.withTg_freeCount (s : State) (x : TravelGovernor) : (s.withTg x).freeCount = s.freeCount := rfl
@[simp] theorem State.withTg_pending (s : State) (x : TravelGovernor) : (s.withTg x).pending = s.pending := rfl

@[simp] theorem State.withPx_ownRank (s : State) (x : PassExecutor) : (s.withPx x).ownRank = s.ownRank := rfl
@[simp] theorem State.withPx_clock (s : State) (x : PassExecutor) : (s.withPx x).clock = s.clock := rfl
@[simp] theorem State.withPx_constants (s : State) (x : PassExecutor) : (s.withPx x).constants = s.constants := rfl
@[simp] theorem State.withPx_nt (s : State) (x : PassExecutor) : (s.withPx x).nt = s.nt := rfl
@[simp] theorem State.withPx_rm (s : State) (x : PassExecutor) : (s.withPx x).rm = s.rm := rfl
@[simp] theorem State.withPx_tg (s : State) (x : PassExecutor) : (s.withPx x).tg = s.tg := rfl
@[simp] theorem State.withPx_pm (s : State) (x : PassExecutor) : (s.withPx x).pm = s.pm := rfl
@[simp] theorem State.withPx_px (s : State) (x : PassExecutor) : (s.withPx x).px = x := rfl
@[simp] theorem State.withPx_hs (s : State) (x : PassExecutor) : (s.withPx x).hs = s.hs := rfl
@[simp] theorem State.withPx_ju (s : State) (x : PassExecutor) : (s.withPx x).ju = s.ju := rfl
@[simp] theorem State.withPx_dp (s : State) (x : PassExecutor) : (s.withPx x).dp = s.dp := rfl
@[simp] theorem State.withPx_su (s : State) (x : PassExecutor) : (s.withPx x).su = s.su := rfl
@[simp] theorem State.withPx_pli (s : State) (x : PassExecutor) : (s.withPx x).pli = s.pli := rfl
@[simp] theorem State.withPx_freeCount (s : State) (x : PassExecutor) : (s.withPx x).freeCount = s.freeCount := rfl
@[simp] theorem State.withPx_pending (s : State) (x : PassExecutor) : (s.withPx x).pending = s.pending := rfl

@[simp] theorem State.withHs_ownRank (s : State) (x : HeadSequencer) : (s.withHs x).ownRank = s.ownRank := rfl
@[simp] theorem State.withHs_clock (s : State) (x : HeadSequencer) : (s.withHs x).clock = s.clock := rfl
@[simp] theorem State.withHs_constants (s : State) (x : HeadSequencer) : (s.withHs x).constants = s.constants := rfl
@[simp] theorem State.withHs_nt (s : State) (x : HeadSequencer) : (s.withHs x).nt = s.nt := rfl
@[simp] theorem State.withHs_rm (s : State) (x : HeadSequencer) : (s.withHs x).rm = s.rm := rfl
@[simp] theorem State.withHs_tg (s : State) (x : HeadSequencer) : (s.withHs x).tg = s.tg := rfl
@[simp] theorem State.withHs_pm (s : State) (x : HeadSequencer) : (s.withHs x).pm = s.pm := rfl
@[simp] theorem State.withHs_px (s : State) (x : HeadSequencer) : (s.withHs x).px = s.px := rfl
@[simp] theorem State.withHs_hs (s : State) (x : HeadSequencer) : (s.withHs x).hs = x := rfl
@[simp] theorem State.withHs_ju (s : State) (x : HeadSequencer) : (s.withHs x).ju = s.ju := rfl
@[simp] theorem State.withHs_dp (s : State) (x : HeadSequencer) : (s.withHs x).dp = s.dp := rfl
@[simp] theorem State.withHs_su (s : State) (x : HeadSequencer) : (s.withHs x).su = s.su := rfl
@[simp] theorem State.withHs_pli (s : State) (x : HeadSequencer) : (s.withHs x).pli = s.pli := rfl
@[simp] theorem State.withHs_freeCount (s : State) (x : HeadSequencer) : (s.withHs x).freeCount = s.freeCount := rfl
@[simp] theorem State.withHs_pending (s : State) (x : HeadSequencer) : (s.withHs x).pending = s.pending := rfl

@[simp] theorem State.withJu_ownRank (s : State) (x : JointUnit) : (s.withJu x).ownRank = s.ownRank := rfl
@[simp] theorem State.withJu_clock (s : State) (x : JointUnit) : (s.withJu x).clock = s.clock := rfl
@[simp] theorem State.withJu_constants (s : State) (x : JointUnit) : (s.withJu x).constants = s.constants := rfl
@[simp] theorem State.withJu_nt (s : State) (x : JointUnit) : (s.withJu x).nt = s.nt := rfl
@[simp] theorem State.withJu_rm (s : State) (x : JointUnit) : (s.withJu x).rm = s.rm := rfl
@[simp] theorem State.withJu_tg (s : State) (x : JointUnit) : (s.withJu x).tg = s.tg := rfl
@[simp] theorem State.withJu_pm (s : State) (x : JointUnit) : (s.withJu x).pm = s.pm := rfl
@[simp] theorem State.withJu_px (s : State) (x : JointUnit) : (s.withJu x).px = s.px := rfl
@[simp] theorem State.withJu_hs (s : State) (x : JointUnit) : (s.withJu x).hs = s.hs := rfl
@[simp] theorem State.withJu_ju (s : State) (x : JointUnit) : (s.withJu x).ju = x := rfl
@[simp] theorem State.withJu_dp (s : State) (x : JointUnit) : (s.withJu x).dp = s.dp := rfl
@[simp] theorem State.withJu_su (s : State) (x : JointUnit) : (s.withJu x).su = s.su := rfl
@[simp] theorem State.withJu_pli (s : State) (x : JointUnit) : (s.withJu x).pli = s.pli := rfl
@[simp] theorem State.withJu_freeCount (s : State) (x : JointUnit) : (s.withJu x).freeCount = s.freeCount := rfl
@[simp] theorem State.withJu_pending (s : State) (x : JointUnit) : (s.withJu x).pending = s.pending := rfl

@[simp] theorem State.withDp_ownRank (s : State) (x : DrivePort) : (s.withDp x).ownRank = s.ownRank := rfl
@[simp] theorem State.withDp_clock (s : State) (x : DrivePort) : (s.withDp x).clock = s.clock := rfl
@[simp] theorem State.withDp_constants (s : State) (x : DrivePort) : (s.withDp x).constants = s.constants := rfl
@[simp] theorem State.withDp_nt (s : State) (x : DrivePort) : (s.withDp x).nt = s.nt := rfl
@[simp] theorem State.withDp_rm (s : State) (x : DrivePort) : (s.withDp x).rm = s.rm := rfl
@[simp] theorem State.withDp_tg (s : State) (x : DrivePort) : (s.withDp x).tg = s.tg := rfl
@[simp] theorem State.withDp_pm (s : State) (x : DrivePort) : (s.withDp x).pm = s.pm := rfl
@[simp] theorem State.withDp_px (s : State) (x : DrivePort) : (s.withDp x).px = s.px := rfl
@[simp] theorem State.withDp_hs (s : State) (x : DrivePort) : (s.withDp x).hs = s.hs := rfl
@[simp] theorem State.withDp_ju (s : State) (x : DrivePort) : (s.withDp x).ju = s.ju := rfl
@[simp] theorem State.withDp_dp (s : State) (x : DrivePort) : (s.withDp x).dp = x := rfl
@[simp] theorem State.withDp_su (s : State) (x : DrivePort) : (s.withDp x).su = s.su := rfl
@[simp] theorem State.withDp_pli (s : State) (x : DrivePort) : (s.withDp x).pli = s.pli := rfl
@[simp] theorem State.withDp_freeCount (s : State) (x : DrivePort) : (s.withDp x).freeCount = s.freeCount := rfl
@[simp] theorem State.withDp_pending (s : State) (x : DrivePort) : (s.withDp x).pending = s.pending := rfl

@[simp] theorem State.withSu_ownRank (s : State) (x : StatusUnit) : (s.withSu x).ownRank = s.ownRank := rfl
@[simp] theorem State.withSu_clock (s : State) (x : StatusUnit) : (s.withSu x).clock = s.clock := rfl
@[simp] theorem State.withSu_constants (s : State) (x : StatusUnit) : (s.withSu x).constants = s.constants := rfl
@[simp] theorem State.withSu_nt (s : State) (x : StatusUnit) : (s.withSu x).nt = s.nt := rfl
@[simp] theorem State.withSu_rm (s : State) (x : StatusUnit) : (s.withSu x).rm = s.rm := rfl
@[simp] theorem State.withSu_tg (s : State) (x : StatusUnit) : (s.withSu x).tg = s.tg := rfl
@[simp] theorem State.withSu_pm (s : State) (x : StatusUnit) : (s.withSu x).pm = s.pm := rfl
@[simp] theorem State.withSu_px (s : State) (x : StatusUnit) : (s.withSu x).px = s.px := rfl
@[simp] theorem State.withSu_hs (s : State) (x : StatusUnit) : (s.withSu x).hs = s.hs := rfl
@[simp] theorem State.withSu_ju (s : State) (x : StatusUnit) : (s.withSu x).ju = s.ju := rfl
@[simp] theorem State.withSu_dp (s : State) (x : StatusUnit) : (s.withSu x).dp = s.dp := rfl
@[simp] theorem State.withSu_su (s : State) (x : StatusUnit) : (s.withSu x).su = x := rfl
@[simp] theorem State.withSu_pli (s : State) (x : StatusUnit) : (s.withSu x).pli = s.pli := rfl
@[simp] theorem State.withSu_freeCount (s : State) (x : StatusUnit) : (s.withSu x).freeCount = s.freeCount := rfl
@[simp] theorem State.withSu_pending (s : State) (x : StatusUnit) : (s.withSu x).pending = s.pending := rfl

@[simp] theorem State.withPli_ownRank (s : State) (x : PeerLine) : (s.withPli x).ownRank = s.ownRank := rfl
@[simp] theorem State.withPli_clock (s : State) (x : PeerLine) : (s.withPli x).clock = s.clock := rfl
@[simp] theorem State.withPli_constants (s : State) (x : PeerLine) : (s.withPli x).constants = s.constants := rfl
@[simp] theorem State.withPli_nt (s : State) (x : PeerLine) : (s.withPli x).nt = s.nt := rfl
@[simp] theorem State.withPli_rm (s : State) (x : PeerLine) : (s.withPli x).rm = s.rm := rfl
@[simp] theorem State.withPli_tg (s : State) (x : PeerLine) : (s.withPli x).tg = s.tg := rfl
@[simp] theorem State.withPli_pm (s : State) (x : PeerLine) : (s.withPli x).pm = s.pm := rfl
@[simp] theorem State.withPli_px (s : State) (x : PeerLine) : (s.withPli x).px = s.px := rfl
@[simp] theorem State.withPli_hs (s : State) (x : PeerLine) : (s.withPli x).hs = s.hs := rfl
@[simp] theorem State.withPli_ju (s : State) (x : PeerLine) : (s.withPli x).ju = s.ju := rfl
@[simp] theorem State.withPli_dp (s : State) (x : PeerLine) : (s.withPli x).dp = s.dp := rfl
@[simp] theorem State.withPli_su (s : State) (x : PeerLine) : (s.withPli x).su = s.su := rfl
@[simp] theorem State.withPli_pli (s : State) (x : PeerLine) : (s.withPli x).pli = x := rfl
@[simp] theorem State.withPli_freeCount (s : State) (x : PeerLine) : (s.withPli x).freeCount = s.freeCount := rfl
@[simp] theorem State.withPli_pending (s : State) (x : PeerLine) : (s.withPli x).pending = s.pending := rfl

@[simp] theorem State.withRm_ownRank (s : State) (x : List RegionWindow) : (s.withRm x).ownRank = s.ownRank := rfl
@[simp] theorem State.withRm_clock (s : State) (x : List RegionWindow) : (s.withRm x).clock = s.clock := rfl
@[simp] theorem State.withRm_constants (s : State) (x : List RegionWindow) : (s.withRm x).constants = s.constants := rfl
@[simp] theorem State.withRm_nt (s : State) (x : List RegionWindow) : (s.withRm x).nt = s.nt := rfl
@[simp] theorem State.withRm_rm (s : State) (x : List RegionWindow) : (s.withRm x).rm = x := rfl
@[simp] theorem State.withRm_tg (s : State) (x : List RegionWindow) : (s.withRm x).tg = s.tg := rfl
@[simp] theorem State.withRm_pm (s : State) (x : List RegionWindow) : (s.withRm x).pm = s.pm := rfl
@[simp] theorem State.withRm_px (s : State) (x : List RegionWindow) : (s.withRm x).px = s.px := rfl
@[simp] theorem State.withRm_hs (s : State) (x : List RegionWindow) : (s.withRm x).hs = s.hs := rfl
@[simp] theorem State.withRm_ju (s : State) (x : List RegionWindow) : (s.withRm x).ju = s.ju := rfl
@[simp] theorem State.withRm_dp (s : State) (x : List RegionWindow) : (s.withRm x).dp = s.dp := rfl
@[simp] theorem State.withRm_su (s : State) (x : List RegionWindow) : (s.withRm x).su = s.su := rfl
@[simp] theorem State.withRm_pli (s : State) (x : List RegionWindow) : (s.withRm x).pli = s.pli := rfl
@[simp] theorem State.withRm_freeCount (s : State) (x : List RegionWindow) : (s.withRm x).freeCount = s.freeCount := rfl
@[simp] theorem State.withRm_pending (s : State) (x : List RegionWindow) : (s.withRm x).pending = s.pending := rfl

@[simp] theorem State.withPm_ownRank (s : State) (x : List Host.Cell) : (s.withPm x).ownRank = s.ownRank := rfl
@[simp] theorem State.withPm_clock (s : State) (x : List Host.Cell) : (s.withPm x).clock = s.clock := rfl
@[simp] theorem State.withPm_constants (s : State) (x : List Host.Cell) : (s.withPm x).constants = s.constants := rfl
@[simp] theorem State.withPm_nt (s : State) (x : List Host.Cell) : (s.withPm x).nt = s.nt := rfl
@[simp] theorem State.withPm_rm (s : State) (x : List Host.Cell) : (s.withPm x).rm = s.rm := rfl
@[simp] theorem State.withPm_tg (s : State) (x : List Host.Cell) : (s.withPm x).tg = s.tg := rfl
@[simp] theorem State.withPm_pm (s : State) (x : List Host.Cell) : (s.withPm x).pm = x := rfl
@[simp] theorem State.withPm_px (s : State) (x : List Host.Cell) : (s.withPm x).px = s.px := rfl
@[simp] theorem State.withPm_hs (s : State) (x : List Host.Cell) : (s.withPm x).hs = s.hs := rfl
@[simp] theorem State.withPm_ju (s : State) (x : List Host.Cell) : (s.withPm x).ju = s.ju := rfl
@[simp] theorem State.withPm_dp (s : State) (x : List Host.Cell) : (s.withPm x).dp = s.dp := rfl
@[simp] theorem State.withPm_su (s : State) (x : List Host.Cell) : (s.withPm x).su = s.su := rfl
@[simp] theorem State.withPm_pli (s : State) (x : List Host.Cell) : (s.withPm x).pli = s.pli := rfl
@[simp] theorem State.withPm_freeCount (s : State) (x : List Host.Cell) : (s.withPm x).freeCount = s.freeCount := rfl
@[simp] theorem State.withPm_pending (s : State) (x : List Host.Cell) : (s.withPm x).pending = s.pending := rfl

@[simp] theorem State.withConstants_ownRank (s : State) (x : Constants) : (s.withConstants x).ownRank = s.ownRank := rfl
@[simp] theorem State.withConstants_clock (s : State) (x : Constants) : (s.withConstants x).clock = s.clock := rfl
@[simp] theorem State.withConstants_constants (s : State) (x : Constants) : (s.withConstants x).constants = x := rfl
@[simp] theorem State.withConstants_nt (s : State) (x : Constants) : (s.withConstants x).nt = s.nt := rfl
@[simp] theorem State.withConstants_rm (s : State) (x : Constants) : (s.withConstants x).rm = s.rm := rfl
@[simp] theorem State.withConstants_tg (s : State) (x : Constants) : (s.withConstants x).tg = s.tg := rfl
@[simp] theorem State.withConstants_pm (s : State) (x : Constants) : (s.withConstants x).pm = s.pm := rfl
@[simp] theorem State.withConstants_px (s : State) (x : Constants) : (s.withConstants x).px = s.px := rfl
@[simp] theorem State.withConstants_hs (s : State) (x : Constants) : (s.withConstants x).hs = s.hs := rfl
@[simp] theorem State.withConstants_ju (s : State) (x : Constants) : (s.withConstants x).ju = s.ju := rfl
@[simp] theorem State.withConstants_dp (s : State) (x : Constants) : (s.withConstants x).dp = s.dp := rfl
@[simp] theorem State.withConstants_su (s : State) (x : Constants) : (s.withConstants x).su = s.su := rfl
@[simp] theorem State.withConstants_pli (s : State) (x : Constants) : (s.withConstants x).pli = s.pli := rfl
@[simp] theorem State.withConstants_freeCount (s : State) (x : Constants) : (s.withConstants x).freeCount = s.freeCount := rfl
@[simp] theorem State.withConstants_pending (s : State) (x : Constants) : (s.withConstants x).pending = s.pending := rfl

@[simp] theorem State.withFree_ownRank (s : State) (x : Nat) : (s.withFree x).ownRank = s.ownRank := rfl
@[simp] theorem State.withFree_clock (s : State) (x : Nat) : (s.withFree x).clock = s.clock := rfl
@[simp] theorem State.withFree_constants (s : State) (x : Nat) : (s.withFree x).constants = s.constants := rfl
@[simp] theorem State.withFree_nt (s : State) (x : Nat) : (s.withFree x).nt = s.nt := rfl
@[simp] theorem State.withFree_rm (s : State) (x : Nat) : (s.withFree x).rm = s.rm := rfl
@[simp] theorem State.withFree_tg (s : State) (x : Nat) : (s.withFree x).tg = s.tg := rfl
@[simp] theorem State.withFree_pm (s : State) (x : Nat) : (s.withFree x).pm = s.pm := rfl
@[simp] theorem State.withFree_px (s : State) (x : Nat) : (s.withFree x).px = s.px := rfl
@[simp] theorem State.withFree_hs (s : State) (x : Nat) : (s.withFree x).hs = s.hs := rfl
@[simp] theorem State.withFree_ju (s : State) (x : Nat) : (s.withFree x).ju = s.ju := rfl
@[simp] theorem State.withFree_dp (s : State) (x : Nat) : (s.withFree x).dp = s.dp := rfl
@[simp] theorem State.withFree_su (s : State) (x : Nat) : (s.withFree x).su = s.su := rfl
@[simp] theorem State.withFree_pli (s : State) (x : Nat) : (s.withFree x).pli = s.pli := rfl
@[simp] theorem State.withFree_freeCount (s : State) (x : Nat) : (s.withFree x).freeCount = x := rfl
@[simp] theorem State.withFree_pending (s : State) (x : Nat) : (s.withFree x).pending = s.pending := rfl

end Sys2Proof.Machine
end

