-- ==== Sys2Proof/Laws/Frames.lean ====
section
/-! SUPPORT. What each shared operation leaves alone: one lemma per operation, composed from those of the operations it
calls. -/

namespace Sys2Proof.Machine

theorem Keeps.refl (l : List Part) (s : State) : Keeps l s s := by
  intro x _; cases x <;> rfl

theorem Keeps.trans {l : List Part} {s t u : State} (h : Keeps l s t) (k : Keeps l t u) : Keeps l s u := by
  intro x hx
  have h1 := h x hx
  have h2 := k x hx
  cases x <;> exact h2.trans h1

/-- Every part of `l` is in `m`. -/
def partsWithin (l m : List Part) : Bool :=
  l.all (fun x => m.elem x)

/-- Fewer parts changed is more kept. -/
theorem Keeps.mono {l m : List Part} {s t : State} (h : Keeps l s t) (sub : partsWithin l m = true) : Keeps m s t :=
  fun x hx => h x (fun hl => hx (List.elem_iff.mp (List.all_eq_true.mp sub x hl)))

/-- One operation after another, each with its own list, within a common one. -/
theorem Keeps.then {l m n : List Part} {s t u : State} (h : Keeps l s t) (k : Keeps m t u)
    (hl : partsWithin l n = true) (hm : partsWithin m n = true) : Keeps n s u :=
  (h.mono hl).trans (k.mono hm)

/-- A last operation, with its own list, after others that keep to the common one. -/
theorem Keeps.via {l m : List Part} {s t u : State} (k : Keeps m t u) (h : Keeps l s t)
    (sub : partsWithin m l = true) : Keeps l s u :=
  h.trans (k.mono sub)

theorem Keeps.ite {l : List Part} {p : Prop} [Decidable p] {s t u : State} (h : Keeps l s t) (k : Keeps l s u) :
    Keeps l s (if p then t else u) := by
  split
  · exact h
  · exact k

/-! ### One block -/

theorem withNt_keeps (s : State) (x : NeighbourTable) : Keeps [.nt] s (s.withNt x) := by
  intro y hy; cases y <;> first | rfl | simp at hy
theorem withTg_keeps (s : State) (x : TravelGovernor) : Keeps [.tg] s (s.withTg x) := by
  intro y hy; cases y <;> first | rfl | simp at hy
theorem withPx_keeps (s : State) (x : PassExecutor) : Keeps [.px] s (s.withPx x) := by
  intro y hy; cases y <;> first | rfl | simp at hy
theorem withHs_keeps (s : State) (x : HeadSequencer) : Keeps [.hs] s (s.withHs x) := by
  intro y hy; cases y <;> first | rfl | simp at hy
theorem withJu_keeps (s : State) (x : JointUnit) : Keeps [.ju] s (s.withJu x) := by
  intro y hy; cases y <;> first | rfl | simp at hy
theorem withDp_keeps (s : State) (x : DrivePort) : Keeps [.dp] s (s.withDp x) := by
  intro y hy; cases y <;> first | rfl | simp at hy
theorem withSu_keeps (s : State) (x : StatusUnit) : Keeps [.su] s (s.withSu x) := by
  intro y hy; cases y <;> first | rfl | simp at hy
theorem withPli_keeps (s : State) (x : PeerLine) : Keeps [.pli] s (s.withPli x) := by
  intro y hy; cases y <;> first | rfl | simp at hy
theorem withRm_keeps (s : State) (x : List RegionWindow) : Keeps [.rm] s (s.withRm x) := by
  intro y hy; cases y <;> first | rfl | simp at hy
theorem withPm_keeps (s : State) (x : List Host.Cell) : Keeps [.pm] s (s.withPm x) := by
  intro y hy; cases y <;> first | rfl | simp at hy
theorem withConstants_keeps (s : State) (x : Constants) : Keeps [.constants] s (s.withConstants x) := by
  intro y hy; cases y <;> first | rfl | simp at hy
theorem withFree_keeps (s : State) (x : Nat) : Keeps [.freeCount] s (s.withFree x) := by
  intro y hy; cases y <;> first | rfl | simp at hy

/-! ### Changes, flags, the own beacon -/

theorem noteChange_keeps (s : State) : Keeps [.pli] s (noteChange s) := withPli_keeps s _

theorem setStation_keeps (x : StationState) (s : State) : Keeps [.su, .pli] s (setStation x s) := by
  unfold setStation
  exact (Keeps.refl _ s).ite ((withSu_keeps s _).then (noteChange_keeps _) (by rfl) (by rfl))

theorem setExecutor_keeps (x : ExecutorState) (s : State) : Keeps [.px, .pli] s (setExecutor x s) := by
  unfold setExecutor
  exact (Keeps.refl _ s).ite ((withPx_keeps s _).then (noteChange_keeps _) (by rfl) (by rfl))

theorem setHead_keeps (x : HeadState) (s : State) : Keeps [.hs, .pli] s (setHead x s) := by
  unfold setHead
  exact (Keeps.refl _ s).ite ((withHs_keeps s _).then (noteChange_keeps _) (by rfl) (by rfl))

theorem setIndex_keeps (i : Nat) (s : State) : Keeps [.px, .pli] s (setIndex i s) := by
  unfold setIndex
  exact (Keeps.refl _ s).ite ((withPx_keeps s _).then (noteChange_keeps _) (by rfl) (by rfl))

theorem setCompletionPending_keeps (b : Bool) (s : State) : Keeps [.px, .pli] s (setCompletionPending b s) := by
  unfold setCompletionPending
  exact (Keeps.refl _ s).ite ((withPx_keeps s _).then (noteChange_keeps _) (by rfl) (by rfl))

theorem setJoints_keeps (x : JointUnit) (s : State) : Keeps [.ju, .pli] s (setJoints x s) := by
  unfold setJoints
  exact (((withJu_keeps s _).mono (by rfl))).ite ((withJu_keeps s _).then (noteChange_keeps _) (by rfl) (by rfl))

theorem beaconDue_keeps (s : State) : Keeps [.pli] s (beaconDue s) := by
  unfold beaconDue
  exact (withPli_keeps s _).ite (withPli_keeps s _)

theorem reportChange_keeps (s : State) : Keeps [.pli] s (reportChange s) := by
  unfold reportChange
  exact (beaconDue_keeps s).ite ((withPli_keeps s _).ite (beaconDue_keeps s))

theorem settle_keeps (s : State) : Keeps [.pli] s (settle s) := by
  unfold settle
  exact ((withPli_keeps s _).trans (reportChange_keeps _)).ite (Keeps.refl _ s)

theorem raise_keeps (f : AttentionFlag) (s : State) : Keeps [.su, .pli] s (raise f s) := by
  unfold raise
  exact ((withSu_keeps s _).then (noteChange_keeps _) (by rfl) (by rfl)).ite ((withSu_keeps s _).mono (by rfl))

theorem raiseIf_keeps (b : Bool) (f : AttentionFlag) (s : State) : Keeps [.su, .pli] s (raiseIf b f s) := by
  unfold raiseIf
  exact (raise_keeps f s).ite (Keeps.refl _ s)

theorem clearFlags_keeps (s : State) : Keeps [.su, .pli] s (clearFlags s) := by
  unfold clearFlags
  exact (Keeps.refl _ s).ite ((withSu_keeps s _).then (noteChange_keeps _) (by rfl) (by rfl))

/-! ### Neighbour Table, Travel Governor, Joint Unit -/

theorem ageTable_keeps (s : State) : Keeps [.nt, .su, .pli] s (ageTable s) :=
  (withNt_keeps s _).then (raiseIf_keeps _ _ _) (by rfl) (by rfl)

theorem fileBeacon_keeps (r : Rank) (c : BeaconContent) (s : State) : Keeps [.nt, .su, .pli] s (fileBeacon r c s) :=
  (withNt_keeps s _).then (raiseIf_keeps _ _ _) (by rfl) (by rfl)

theorem applyTravel_keeps (r : TravelResult) (s : State) : Keeps [.tg, .su, .pli] s (applyTravel r s) :=
  (withTg_keeps s _).then (raiseIf_keeps _ _ _) (by rfl) (by rfl)

theorem immediateStop_keeps (s : State) : Keeps [.tg] s (immediateStop s) := withTg_keeps s _

theorem withdrawTarget_keeps (s : State) : Keeps [.tg] s (withdrawTarget s) := withTg_keeps s _

theorem giveTarget_keeps (t : MotionTarget) (d : Direction) (b : Bool) (s : State) : Keeps [.tg] s (giveTarget t d b s) :=
  withTg_keeps s _

theorem releaseTest_keeps (s : State) : Keeps [.ju, .pli] s (releaseTest s) := by
  unfold releaseTest
  split
  · exact Keeps.refl _ s
  · exact (setJoints_keeps _ s).ite (Keeps.refl _ s)

theorem jointExpiry_keeps (s : State) : Keeps [.ju, .pli] s (jointExpiry s) := by
  unfold jointExpiry
  dsimp only
  refine (setJoints_keeps _ _).via ?_ (by rfl)
  split
  · exact (releaseTest_keeps _).via (setJoints_keeps _ s) (by rfl)
  · exact setJoints_keeps _ s

theorem closeJoints_keeps (k : EndKind) (s : State) : Keeps [.ju, .su, .pli] s (closeJoints k s) :=
  (setJoints_keeps _ s).then (raiseIf_keeps _ _ _) (by rfl) (by rfl)

theorem emptyJoints_keeps (s : State) : Keeps [.ju, .pli] s (emptyJoints s) := setJoints_keeps _ s

/-! ### Head Sequencer -/

theorem enterHead_keeps (x : HeadState) (s : State) : Keeps [.hs, .pli] s (enterHead x s) :=
  (setHead_keeps x s).then (withHs_keeps _ _) (by rfl) (by rfl)

theorem leaveStirring_keeps (s : State) : Keeps [.ju, .tg, .pli] s (leaveStirring s) := by
  unfold leaveStirring
  dsimp only
  split
  · exact (withTg_keeps _ _).via ((releaseTest_keeps s).mono (by rfl)) (by rfl)
  · exact Keeps.refl _ s

theorem enterRetracting_keeps (s : State) : Keeps [.hs, .ju, .tg, .pli] s (enterRetracting s) :=
  ((leaveStirring_keeps s).then (enterHead_keeps _ _) (by rfl) (by rfl)).trans ((withHs_keeps _ _).mono (by rfl))

theorem faultRetract_keeps (s : State) : Keeps [.hs, .ju, .tg, .pli] s (faultRetract s) := by
  unfold faultRetract
  dsimp only
  exact ((enterRetracting_keeps s).then (withHs_keeps _ _) (by rfl) (by rfl)).ite (Keeps.refl _ s)

theorem normalRetract_keeps (s : State) : Keeps [.hs, .ju, .tg, .pli] s (normalRetract s) := by
  unfold normalRetract
  exact (((withHs_keeps s _).mono (by rfl))).ite ((enterRetracting_keeps s).ite (Keeps.refl _ s))

theorem enterHalted_keeps (s : State) : Keeps [.hs, .dp, .pli] s (enterHalted s) :=
  ((enterHead_keeps _ s).then (withHs_keeps _ _) (by rfl) (by rfl)).trans ((withDp_keeps _ _).mono (by rfl))

theorem enterParked_keeps (s : State) : Keeps [.hs, .pli] s (enterParked s) :=
  (enterHead_keeps _ s).then (withHs_keeps _ _) (by rfl) (by rfl)

theorem enterStirring_keeps (w : WeldParams) (s : State) : Keeps [.hs, .tg, .pli] s (enterStirring w s) :=
  ((enterHead_keeps _ s).then (withHs_keeps _ _) (by rfl) (by rfl)).trans ((withTg_keeps _ _).mono (by rfl))

theorem plungeDone_keeps (w : WeldParams) (s : State) : Keeps [.hs, .tg, .pli] s (plungeDone w s) := by
  unfold plungeDone
  dsimp only
  exact ((enterHead_keeps _ s).then (enterStirring_keeps w _) (by rfl) (by rfl)).ite ((enterHead_keeps _ s).mono (by rfl))

theorem spinUp_keeps (w : WeldParams) (s : State) : Keeps [.hs, .pli] s (spinUp w s) :=
  (enterHead_keeps _ s).then (withHs_keeps _ _) (by rfl) (by rfl)

theorem continueWeld_keeps (a b : Nat) (c : Bool) (s : State) : Keeps [.hs] s (continueWeld a b c s) := by
  unfold continueWeld
  split
  · exact withHs_keeps s _
  · exact Keeps.refl _ s

theorem retractOnReport_keeps (s : State) : Keeps [.hs, .ju, .tg, .pli] s (retractOnReport s) := by
  unfold retractOnReport
  exact (enterRetracting_keeps s).ite (Keeps.refl _ s)

theorem headPathEnd_keeps (s : State) : Keeps [.hs, .ju, .tg, .pli] s (headPathEnd s) := by
  unfold headPathEnd
  split
  · exact (Keeps.refl _ s).ite (retractOnReport_keeps s)
  · exact retractOnReport_keeps s

theorem forceStep_keeps (w : WeldParams) (s : State) : Keeps [.hs, .su, .pli] s (forceStep w s) :=
  (withHs_keeps s _).then (raiseIf_keeps _ _ _) (by rfl) (by rfl)

theorem headCounts_keeps (s : State) : Keeps [.hs] s (headCounts s) := withHs_keeps s _

theorem headRamps_keeps (s : State) : Keeps [.hs, .su, .pli] s (headRamps s) := by
  unfold headRamps
  split
  · exact ((withHs_keeps s _).mono (by rfl))
  · exact (forceStep_keeps _ s).ite (Keeps.refl _ s)
  · exact ((withHs_keeps s _).mono (by rfl))
  · exact Keeps.refl _ s

theorem endDwell_keeps (s : State) : Keeps [.hs, .tg, .pli] s (endDwell s) := by
  unfold endDwell
  split
  · exact enterStirring_keeps _ s
  · exact Keeps.refl _ s

theorem startPendingRetract_keeps (s : State) : Keeps [.hs, .ju, .tg, .pli] s (startPendingRetract s) := by
  unfold startPendingRetract
  exact (enterRetracting_keeps s).ite (Keeps.refl _ s)

/-! ### Resets and the Pass Executor -/

/-- What a chain's end, a LINE RESET taking effect, or anything that can bring either about may change. -/
def chainParts : List Part := [.constants, .nt, .tg, .px, .hs, .ju, .dp, .su, .pli, .freeCount]

theorem lineResetEffect_keeps (s : State) : Keeps chainParts s (lineResetEffect s) := by
  intro x hx; cases x <;> first | rfl | simp [chainParts] at hx

theorem heldResetEffect_keeps (s : State) : Keeps chainParts s (heldResetEffect s) := by
  unfold heldResetEffect
  exact (lineResetEffect_keeps s).ite (Keeps.refl _ s)

theorem jobCleared_keeps (s : State) : Keeps [.hs, .ju, .tg, .dp, .pli] s (jobCleared s) :=
  (((emptyJoints_keeps s).then (withTg_keeps _ _) (by rfl) (by rfl)).trans ((withHs_keeps _ _).mono (by rfl))).trans
    ((withDp_keeps _ _).mono (by rfl))

theorem beginRetractFromHalted_keeps (s : State) : Keeps [.hs, .ju, .tg, .dp, .pli] s (beginRetractFromHalted s) :=
  (enterRetracting_keeps s).then (withDp_keeps _ _) (by rfl) (by rfl)

theorem decideEnd_keeps (e : Decision) (s : State) : Keeps [.px] s (decideEnd e s) := withPx_keeps s _

theorem fileSecondary_keeps (d : Detail) (s : State) : Keeps [.px] s (fileSecondary d s) := by
  unfold fileSecondary
  exact (withPx_keeps s _).ite (Keeps.refl _ s)

theorem notifyFetch_keeps (r : PassRecord) (s : State) : Keeps [.su, .pli] s (notifyFetch r s) := by
  unfold notifyFetch
  exact ((raise_keeps _ s).then (withSu_keeps _ _) (by rfl) (by rfl)).ite (Keeps.refl _ s)

theorem takeIndex_keeps (i : Nat) (s : State) : Keeps [.px, .su, .pli] s (takeIndex i s) :=
  ((setIndex_keeps i s).then (withPx_keeps _ _) (by rfl) (by rfl)).trans ((notifyFetch_keeps _ _).mono (by rfl))

theorem recordPasses_keeps (k : RecordKind) (r : PassRecord) (s : State) : Keeps [.px] s (recordPasses k r s) :=
  withPx_keeps s _

theorem startJoints_keeps (r : PassRecord) (d : Direction) (s : State) : Keeps [.ju, .pli] s (startJoints r d s) :=
  setJoints_keeps _ s

theorem startTravel_keeps (k : TravelKind) (r : PassRecord) (s : State) : Keeps [.tg] s (startTravel k r s) :=
  giveTarget_keeps _ _ _ s

theorem startContinuation_keeps (r : PassRecord) (s : State) : Keeps [.tg, .ju, .hs, .pli] s (startContinuation r s) :=
  ((giveTarget_keeps _ _ _ s).then (startJoints_keeps r _ _) (by rfl) (by rfl)).trans ((continueWeld_keeps _ _ _ _).mono (by rfl))

theorem endChain_keeps (e : Decision) (s : State) : Keeps chainParts s (endChain e s) := by
  unfold endChain
  dsimp only
  split
  · exact (lineResetEffect_keeps _).via ((setCompletionPending_keeps _ _).via ((withFree_keeps _ _).via
      ((withPx_keeps s _).mono (by rfl)) (by rfl)) (by rfl)) (by rfl)
  · split <;>
      exact (setStation_keeps _ _).via ((setExecutor_keeps _ _).via ((setCompletionPending_keeps _ _).via
        ((withFree_keeps _ _).via ((withPx_keeps s _).mono (by rfl)) (by rfl)) (by rfl)) (by rfl)) (by rfl)

theorem closeStopping_keeps (e : Decision) (s : State) : Keeps chainParts s (closeStopping e s) :=
  ((closeJoints_keeps _ s).then (withdrawTarget_keeps _) (by rfl) (by rfl)).trans (endChain_keeps e _)

theorem clampOpen_keeps (s : State) : Keeps chainParts s (clampOpen s) :=
  (raise_keeps _ s).then (closeStopping_keeps _ _) (by rfl) (by rfl)

theorem startFreshWeld_keeps (r : PassRecord) (s : State) : Keeps chainParts s (startFreshWeld r s) := by
  unfold startFreshWeld
  dsimp only
  split
  · exact (spinUp_keeps _ _).via ((startJoints_keeps r _ _).via ((giveTarget_keeps _ _ _ s).mono (by rfl)) (by rfl)) (by rfl)
  · split
    · exact (clampOpen_keeps _).via ((startJoints_keeps r _ _).via ((giveTarget_keeps _ _ _ s).mono (by rfl)) (by rfl)) (by rfl)
    · exact (startJoints_keeps r _ _).via ((giveTarget_keeps _ _ _ s).mono (by rfl)) (by rfl)

theorem startPause_keeps (r : PassRecord) (s : State) : Keeps [.tg, .px] s (startPause r s) :=
  (withTg_keeps s _).then (withPx_keeps _ _) (by rfl) (by rfl)

theorem handRecordOn_keeps (r : PassRecord) (s : State) : Keeps chainParts s (handRecordOn r s) := by
  unfold handRecordOn
  dsimp only
  split
  · exact closeStopping_keeps _ s
  · split
    · exact (startTravel_keeps _ r _).via ((setExecutor_keeps _ s).mono (by rfl)) (by rfl)
    · exact (startTravel_keeps _ r _).via ((setExecutor_keeps _ s).mono (by rfl)) (by rfl)
    · exact (startPause_keeps r _).via ((setExecutor_keeps _ s).mono (by rfl)) (by rfl)
    · split
      · exact (startFreshWeld_keeps r _).via ((setExecutor_keeps _ s).mono (by rfl)) (by rfl)
      · exact (startContinuation_keeps r _).via ((setExecutor_keeps _ s).mono (by rfl)) (by rfl)
    · exact ((setExecutor_keeps _ s).mono (by rfl))

theorem startRecord_keeps (r : PassRecord) (s : State) : Keeps chainParts s (startRecord r s) := by
  unfold startRecord
  exact ((setExecutor_keeps _ s).mono (by rfl)).ite (handRecordOn_keeps r s)

theorem closeRest_keeps {e : Decision} {s t : State} (h : Keeps chainParts s t) :
    Keeps chainParts s (if atRest t then closeStopping e t else t) :=
  (h.trans (closeStopping_keeps e t)).ite h

theorem programCheck_keeps (d : Detail) (s : State) : Keeps chainParts s (programCheck d s) := by
  have checked : Keeps chainParts s (raise .programCheck (s.withPx { s.px with passed := false })) :=
    (raise_keeps _ _).via ((withPx_keeps s _).mono (by rfl)) (by rfl)
  unfold programCheck
  dsimp only
  split
  · exact (closeStopping_keeps _ _).via checked (by rfl)
  · exact closeRest_keeps ((normalRetract_keeps _).via ((setExecutor_keeps _ _).via ((decideEnd_keeps _ _).via
      ((withdrawTarget_keeps _).via checked (by rfl)) (by rfl)) (by rfl)) (by rfl))

theorem judgeAndStart_keeps (k : RecordKind) (r : PassRecord) (s : State) : Keeps chainParts s (judgeAndStart k r s) := by
  unfold judgeAndStart
  split
  · exact programCheck_keeps _ s
  · exact (recordPasses_keeps k r s).then (startRecord_keeps r _) (by rfl) (by rfl)

theorem followBranch_keeps (r : PassRecord) (s : State) : Keeps chainParts s (followBranch r s) := by
  have read : ∀ t : PassRecord, Keeps chainParts s (notifyFetch t ((setIndex r.rate s).withPx
      { (setIndex r.rate s).px with record := some t })) := fun t =>
    (notifyFetch_keeps _ _).via ((withPx_keeps _ _).via ((setIndex_keeps _ s).mono (by rfl)) (by rfl)) (by rfl)
  unfold followBranch
  dsimp only
  split
  · exact programCheck_keeps _ s
  · split
    · exact (programCheck_keeps _ _).via (read _) (by rfl)
    · exact (programCheck_keeps _ _).via (read _) (by rfl)
    · exact (judgeAndStart_keeps _ _ _).via (read _) (by rfl)

theorem completeFetch_keeps (s : State) : Keeps chainParts s (completeFetch s) := by
  unfold completeFetch
  dsimp only
  split
  · exact (programCheck_keeps _ _).via ((withPx_keeps s _).mono (by rfl)) (by rfl)
  · split
    · exact (programCheck_keeps _ _).via ((withPx_keeps s _).mono (by rfl)) (by rfl)
    · split
      · exact (programCheck_keeps _ _).via ((withPx_keeps s _).mono (by rfl)) (by rfl)
      · exact (followBranch_keeps _ _).via ((withPx_keeps s _).mono (by rfl)) (by rfl)
    · exact (judgeAndStart_keeps _ _ _).via ((withPx_keeps s _).mono (by rfl)) (by rfl)

theorem beginFetch_keeps (role : Role) (i : Nat) (s : State) : Keeps chainParts s (beginFetch role i s) := by
  unfold beginFetch
  dsimp only
  split
  · exact (programCheck_keeps _ _).via ((withPx_keeps _ _).via ((setExecutor_keeps _ _).via ((withPx_keeps s _).mono (by rfl)) (by rfl)) (by rfl)) (by rfl)
  · exact (takeIndex_keeps i _).via ((setExecutor_keeps _ _).via ((withPx_keeps s _).mono (by rfl)) (by rfl)) (by rfl)

theorem closeRecord_keeps (s : State) : Keeps chainParts s (closeRecord s) := by
  unfold closeRecord
  split
  · exact Keeps.refl _ s
  · split
    · exact closeStopping_keeps _ s
    · exact (beginFetch_keeps _ _ _).via ((withPx_keeps _ _).via ((withdrawTarget_keeps _).via
        ((closeJoints_keeps _ s).mono (by rfl)) (by rfl)) (by rfl)) (by rfl)

theorem closeIfRest_keeps (s : State) : Keeps chainParts s (closeIfRest s) := by
  unfold closeIfRest
  exact (closeRecord_keeps s).ite (Keeps.refl _ s)

theorem awaitEnd_keeps (e : Decision) (s : State) : Keeps chainParts s (awaitEnd e s) :=
  ((decideEnd_keeps e s).then (setExecutor_keeps _ _) (by rfl) (by rfl)).trans (closeIfRest_keeps _)

theorem executorPathEnd_keeps (s : State) : Keeps chainParts s (executorPathEnd s) := by
  unfold executorPathEnd
  dsimp only
  split
  · split
    · exact (closeRecord_keeps _).via ((decideEnd_keeps _ s).mono (by rfl)) (by rfl)
    · exact (closeIfRest_keeps _).via ((setExecutor_keeps _ _).via ((decideEnd_keeps _ s).mono (by rfl)) (by rfl)) (by rfl)
  · exact Keeps.refl _ s

theorem executorShortEnd_keeps (e : Decision) (s : State) : Keeps chainParts s (executorShortEnd e s) := by
  unfold executorShortEnd
  exact (awaitEnd_keeps e s).ite (Keeps.refl _ s)

theorem stoppingCause_keeps (e : Decision) (d : Detail) (s : State) : Keeps chainParts s (stoppingCause e d s) := by
  have retract : Keeps chainParts s (faultRetract (withdrawTarget s)) :=
    (withdrawTarget_keeps s).then (faultRetract_keeps _) (by rfl) (by rfl)
  unfold stoppingCause
  dsimp only
  split
  · exact Keeps.refl _ s
  · exact Keeps.refl _ s
  · exact closeStopping_keeps e s
  · split
    · exact closeStopping_keeps e s
    · exact retract.trans (awaitEnd_keeps e _)
  · exact retract.trans (awaitEnd_keeps e _)
  · exact (retract.then (fileSecondary_keeps d _) (by rfl) (by rfl)).ite (retract.then (decideEnd_keeps e _) (by rfl) (by rfl))
  · exact retract.then (fileSecondary_keeps d _) (by rfl) (by rfl)

theorem faultCause_keeps (d : Detail) (s : State) : Keeps chainParts s (faultCause d s) :=
  (raise_keeps _ s).then (stoppingCause_keeps _ _ _) (by rfl) (by rfl)

theorem headFault_keeps (d : Detail) (s : State) : Keeps chainParts s (headFault d s) :=
  (faultRetract_keeps s).then (faultCause_keeps d _) (by rfl) (by rfl)

theorem conflictStop_keeps (d : Detail) (s : State) : Keeps chainParts s (conflictStop d s) := by
  unfold conflictStop
  dsimp only
  split
  · split
    · exact ((immediateStop_keeps s).mono (by rfl))
    · exact (stoppingCause_keeps _ _ _).via ((immediateStop_keeps s).mono (by rfl)) (by rfl)
  · exact Keeps.refl _ s

theorem checkRankConflict_keeps (s : State) : Keeps chainParts s (checkRankConflict s) := by
  unfold checkRankConflict
  exact ((raise_keeps _ s).then (conflictStop_keeps _ _) (by rfl) (by rfl)).ite (Keeps.refl _ s)

theorem estopCause_keeps (s : State) : Keeps chainParts s (estopCause s) := by
  unfold estopCause
  split
  · exact Keeps.refl _ s
  · exact Keeps.refl _ s
  · split
    · exact (closeStopping_keeps _ s).ite ((fileSecondary_keeps _ s).then (closeStopping_keeps _ _) (by rfl) (by rfl))
    · exact closeStopping_keeps _ s
  · exact closeStopping_keeps _ s

theorem retractTimeoutCause_keeps (s : State) : Keeps chainParts s (retractTimeoutCause s) := by
  unfold retractTimeoutCause
  dsimp only
  split
  · exact ((raise_keeps _ s).mono (by rfl))
  · exact ((raise_keeps _ s).mono (by rfl))
  · split
    · split
      · exact (closeStopping_keeps _ _).via ((raise_keeps _ s).mono (by rfl)) (by rfl)
      · exact (closeStopping_keeps _ _).via ((fileSecondary_keeps _ _).via ((raise_keeps _ s).mono (by rfl)) (by rfl)) (by rfl)
    · exact (closeStopping_keeps _ _).via ((raise_keeps _ s).mono (by rfl)) (by rfl)

theorem retractTimesOut_keeps (s : State) : Keeps chainParts s (retractTimesOut s) :=
  (((enterHalted_keeps s).then (immediateStop_keeps _) (by rfl) (by rfl)).trans (retractTimeoutCause_keeps _)).trans (heldResetEffect_keeps _)

theorem headEnd_keeps (s : State) : Keeps chainParts s (headEnd s) := by
  unfold headEnd
  exact (closeIfRest_keeps s).ite ((lineResetEffect_keeps s).ite
    (((setExecutor_keeps _ s).then (setStation_keeps _ _) (by rfl) (by rfl)).ite (Keeps.refl _ s)))

theorem haltTaken_keeps (s : State) : Keeps chainParts s (haltTaken s) := by
  have halting : Keeps chainParts s (closeIfRest (setExecutor .halting (decideEnd ⟨.halted, none⟩
      (normalRetract (withdrawTarget s))))) :=
    (closeIfRest_keeps _).via ((setExecutor_keeps _ _).via ((decideEnd_keeps _ _).via ((normalRetract_keeps _).via
      ((withdrawTarget_keeps s).mono (by rfl)) (by rfl)) (by rfl)) (by rfl)) (by rfl)
  unfold haltTaken
  dsimp only
  split
  · exact Keeps.refl _ s
  · exact Keeps.refl _ s
  · exact Keeps.refl _ s
  · exact closeStopping_keeps _ s
  · split
    · exact closeStopping_keeps _ s
    · exact halting
  · exact halting
  · exact (Keeps.refl _ s).ite ((decideEnd_keeps _ s).then (setExecutor_keeps _ _) (by rfl) (by rfl))

theorem pauseCounts_keeps (s : State) : Keeps chainParts s (pauseCounts s) := by
  unfold pauseCounts
  dsimp only
  split
  · exact (closeRecord_keeps _).via ((decideEnd_keeps _ _).via ((withPx_keeps s _).mono (by rfl)) (by rfl)) (by rfl)
  · exact ((withPx_keeps s _).mono (by rfl))

theorem executorCloses_keeps (s : State) : Keeps chainParts s (executorCloses s) := by
  unfold executorCloses
  exact (closeIfRest_keeps s).ite ((completeFetch_keeps s).ite (Keeps.refl _ s))

theorem executorTurn_keeps (s : State) : Keeps chainParts s (executorTurn s) := by
  unfold executorTurn
  exact (pauseCounts_keeps s).ite (executorCloses_keeps s)

end Sys2Proof.Machine
end

