-- ==== Sys2Proof/Laws/Effects.lean ====
section
/-! SUPPORT. What each shared operation makes of a state, said once: the state before with the parts it writes replaced, the
own beacon's slot and the change marks of the Peer Line Interface apart. -/

namespace Sys2Proof.Machine

/-! ### The Peer Line Interface under reported changes -/

theorem LineKeeps.refl (a : PeerLine) : LineKeeps a a := rfl

theorem LineKeeps.trans {a b c : PeerLine} (h : LineKeeps a b) (k : LineKeeps b c) : LineKeeps a c := by
  unfold LineKeeps at *
  rw [← h, ← k]

theorem lineKeeps_noteChange (s : State) : LineKeeps s.pli (noteChange s).pli := rfl

theorem lineKeeps_beaconDue (s : State) : LineKeeps s.pli (beaconDue s).pli := by
  unfold beaconDue; split <;> rfl

theorem lineKeeps_settle (s : State) : LineKeeps s.pli (settle s).pli := by
  unfold settle reportChange beaconDue
  repeat' split
  all_goals rfl

/-- A state that differs in the Peer Line Interface alone. -/
theorem eq_of_keeps_pli {s t : State} (h : Keeps [.pli] s t) : t = { s with pli := t.pli } := by
  cases s; cases t
  have a := h .ownRank (by simp); have b := h .clock (by simp); have c := h .constants (by simp)
  have d := h .nt (by simp); have e := h .rm (by simp); have f := h .tg (by simp); have g := h .pm (by simp)
  have i := h .px (by simp); have j := h .hs (by simp); have k := h .ju (by simp); have l := h .dp (by simp)
  have m := h .su (by simp); have n := h .freeCount (by simp); have o := h .pending (by simp)
  simp only [Part.same] at *
  subst_vars
  rfl

theorem settle_eq (s : State) : ∃ l, settle s = { s with pli := l } ∧ LineKeeps s.pli l :=
  ⟨_, eq_of_keeps_pli (settle_keeps s), lineKeeps_settle s⟩

/-- With no change noted the end of an event does nothing. -/
theorem settle_of_quiet {s : State} (h : s.pli.changeNoted = false) : settle s = s := by
  simp [settle, h]

theorem noteChange_eq (s : State) : ∃ l, noteChange s = { s with pli := l } ∧ LineKeeps s.pli l :=
  ⟨_, rfl, rfl⟩

/-! ### Reported items and flags -/

theorem setStation_eq (x : StationState) (s : State) :
    ∃ l, setStation x s = { s with su := { s.su with station := x }, pli := l } ∧ LineKeeps s.pli l := by
  unfold setStation
  split
  · rename_i h; exact ⟨s.pli, by rw [← h], rfl⟩
  · exact ⟨_, rfl, rfl⟩

theorem setExecutor_eq (x : ExecutorState) (s : State) :
    ∃ l, setExecutor x s = { s with px := { s.px with state := x }, pli := l } ∧ LineKeeps s.pli l := by
  unfold setExecutor
  split
  · rename_i h; exact ⟨s.pli, by rw [← h], rfl⟩
  · exact ⟨_, rfl, rfl⟩

theorem setHead_eq (x : HeadState) (s : State) :
    ∃ l, setHead x s = { s with hs := { s.hs with state := x }, pli := l } ∧ LineKeeps s.pli l := by
  unfold setHead
  split
  · rename_i h; exact ⟨s.pli, by rw [← h], rfl⟩
  · exact ⟨_, rfl, rfl⟩

theorem setIndex_eq (i : Nat) (s : State) :
    ∃ l, setIndex i s = { s with px := { s.px with index := i }, pli := l } ∧ LineKeeps s.pli l := by
  unfold setIndex
  split
  · rename_i h; exact ⟨s.pli, by rw [← h], rfl⟩
  · exact ⟨_, rfl, rfl⟩

theorem setCompletionPending_eq (b : Bool) (s : State) :
    ∃ l, setCompletionPending b s = { s with px := { s.px with completionPending := b }, pli := l } ∧ LineKeeps s.pli l := by
  unfold setCompletionPending
  split
  · rename_i h; exact ⟨s.pli, by rw [← h], rfl⟩
  · exact ⟨_, rfl, rfl⟩

theorem setJoints_eq (u : JointUnit) (s : State) :
    ∃ l, setJoints u s = { s with ju := u, pli := l } ∧ LineKeeps s.pli l := by
  unfold setJoints
  split
  · exact ⟨_, rfl, rfl⟩
  · exact ⟨_, rfl, rfl⟩

theorem raise_eq (f : AttentionFlag) (s : State) :
    ∃ l, raise f s = { s with su := { s.su with flags := s.su.flags ||| (1#14 <<< f.bit) }, pli := l } ∧ LineKeeps s.pli l := by
  unfold raise
  split
  · rename_i h
    refine ⟨{ s.pli with changeNoted := true }, ?_, rfl⟩
    have : s.su.flags ||| (1#14 <<< f.bit) = 1#14 <<< f.bit := by rw [h]; simp
    rw [this]; rfl
  · exact ⟨_, rfl, rfl⟩

theorem raiseIf_eq (b : Bool) (f : AttentionFlag) (s : State) :
    ∃ l, raiseIf b f s = { s with su := { s.su with flags := if b then s.su.flags ||| (1#14 <<< f.bit) else s.su.flags }, pli := l }
      ∧ LineKeeps s.pli l := by
  unfold raiseIf
  cases b
  · exact ⟨s.pli, rfl, rfl⟩
  · exact raise_eq f s

/-- A raised flag is set, and no other flag changes. -/
theorem flag_raised (b : BitVec 14) (f g : AttentionFlag) :
    (b ||| (1#14 <<< f.bit)).getLsbD g.bit = (b.getLsbD g.bit || decide (g = f)) := by
  rw [BitVec.getLsbD_or]
  congr 1
  cases f <;> cases g <;> decide

theorem State.flag_raise (f g : AttentionFlag) (s : State) : (raise f s).flag g = (s.flag g || decide (g = f)) := by
  obtain ⟨l, h, _⟩ := raise_eq f s
  rw [h]
  exact flag_raised _ _ _

theorem State.flag_raiseIf (b : Bool) (f g : AttentionFlag) (s : State) :
    (raiseIf b f s).flag g = (s.flag g || (b && decide (g = f))) := by
  cases b
  · simp [raiseIf]
  · simpa [raiseIf] using State.flag_raise f g s

theorem clearFlags_eq (s : State) :
    ∃ l, clearFlags s = { s with su := { s.su with flags := 0 }, pli := l } ∧ LineKeeps s.pli l := by
  unfold clearFlags
  split
  · rename_i h; exact ⟨s.pli, by rw [← h], rfl⟩
  · exact ⟨_, rfl, rfl⟩

/-! ### The head and the joints -/

theorem enterHead_eq (x : HeadState) (s : State) :
    ∃ l, enterHead x s = { s with hs := { s.hs with state := x, phase := 0 }, pli := l } ∧ LineKeeps s.pli l := by
  obtain ⟨l, h, k⟩ := setHead_eq x s
  exact ⟨l, by simp [enterHead, h, State.withHs], k⟩

/-- The release test finds the entry's release point passed exactly where the spec says so. -/
theorem released_iff (s : State) (e : OpenJoint) (h : s.hs.state = .stirring) :
    (∃ p, s.tg.p = some p ∧ (isLead s.ju e && e.state == .pending && releasePassed s.tg.dir p e.release) = true) ↔ Passed s e := by
  unfold Passed isLead releasePassed
  constructor
  · rintro ⟨p, hp, hr⟩
    simp only [Bool.and_eq_true, beq_iff_eq] at hr
    refine ⟨h, hr.1.1, hr.1.2, p, hp, ?_⟩
    cases hd : s.tg.dir <;> simp [hd] at hr <;> simp [hr.2]
  · rintro ⟨_, hl, hs, p, hp, hu, hd⟩
    refine ⟨p, hp, ?_⟩
    cases hdir : s.tg.dir <;> simp [hl, hs, hdir] at * <;> assumption

theorem leftStirring_refl {s : State} (h : ∀ e ∈ s.ju.openList, ¬ Passed s e) : LeftStirring s s.ju where
  awaited := rfl
  closedList := rfl
  length := rfl
  passed _ e hi hp := absurd hp (h e (List.mem_of_getElem? hi))
  others _ _ hi _ := hi
  released := fun ⟨e, he, hp⟩ => absurd hp (h e he)
  kept _ := rfl

/-- The release test with the head STIRRING. -/
theorem releaseTest_eq (s : State) (h : s.hs.state = .stirring) :
    ∃ l u, releaseTest s = { s with ju := u, pli := l } ∧ LineKeeps s.pli l ∧ LeftStirring s u := by
  unfold releaseTest
  cases hp : s.tg.p with
  | none =>
    refine ⟨s.pli, s.ju, rfl, rfl, leftStirring_refl ?_⟩
    rintro e _ ⟨_, _, _, p, hq, _⟩
    rw [hp] at hq; cases hq
  | some p =>
    have key : ∀ e : OpenJoint,
        (isLead s.ju e && e.state == .pending && releasePassed s.tg.dir p e.release) = true ↔ Passed s e := by
      intro e
      rw [← released_iff s e h]
      constructor
      · intro hr; exact ⟨p, hp, hr⟩
      · rintro ⟨q, hq, hr⟩; rw [hp] at hq; cases hq; exact hr
    by_cases hr : releases s.ju s.tg.dir p = true
    · obtain ⟨l, hl, hk⟩ := setJoints_eq
        { s.ju with openList := s.ju.openList.map (releaseEntry s.ju s.tg.dir p), currentLead := none } s
      refine ⟨l, _, by simp only [hr, if_true]; exact hl, hk, ?_⟩
      have hex : ∃ e ∈ s.ju.openList, Passed s e := by
        obtain ⟨e, he, hpe⟩ := List.any_eq_true.mp hr
        exact ⟨e, he, (key e).mp hpe⟩
      exact {
        awaited := rfl, closedList := rfl, length := by simp
        passed := fun _ e hi hpe => by simp [hi, releaseEntry, (key e).mpr hpe]
        others := fun i e hi hpe => by
          have : (isLead s.ju e && e.state == .pending && releasePassed s.tg.dir p e.release) = false := by
            rw [Bool.eq_false_iff]; exact fun hc => hpe ((key e).mp hc)
          simp [hi, releaseEntry, this]
        released := fun _ => rfl
        kept := fun hn => absurd hex hn }
    · refine ⟨s.pli, s.ju, by simp only [hr, Bool.false_eq_true, if_false], rfl, leftStirring_refl ?_⟩
      intro e he hpe
      exact hr (List.any_eq_true.mpr ⟨e, he, (key e).mpr hpe⟩)

theorem leaveStirring_eq (s : State) :
    ∃ l u, leaveStirring s = { s with
        ju := u, tg := { s.tg with phaseOpen := s.tg.phaseOpen && decide (s.hs.state ≠ .stirring) }, pli := l }
      ∧ LineKeeps s.pli l ∧ LeftStirring s u := by
  unfold leaveStirring
  by_cases h : s.hs.state = .stirring
  · obtain ⟨l, u, he, hk, hu⟩ := releaseTest_eq s h
    refine ⟨l, u, ?_, hk, hu⟩
    rw [if_pos h, he]
    simp [State.withTg, h]
  · refine ⟨s.pli, s.ju, by rw [if_neg h]; simp [h], rfl, leftStirring_refl ?_⟩
    rintro e _ ⟨hs, _⟩
    exact h hs

theorem enterRetracting_eq (s : State) :
    ∃ l u, enterRetracting s = { s with
        hs := { s.hs with state := .retracting, phase := 0, spindle := 0, trim := 0 }, ju := u
        tg := { s.tg with phaseOpen := s.tg.phaseOpen && decide (s.hs.state ≠ .stirring) }, pli := l }
      ∧ LineKeeps s.pli l ∧ LeftStirring s u := by
  obtain ⟨l, u, h, hk, hu⟩ := leaveStirring_eq s
  obtain ⟨l', h', hk'⟩ := enterHead_eq .retracting (leaveStirring s)
  rw [h] at h' hk'
  refine ⟨l', u, ?_, hk.trans hk', hu⟩
  unfold enterRetracting
  rw [h, h']
  rfl

/-- R115 for a head at work. -/
theorem faultRetract_eq (s : State) (h : s.hs.state.working = true) :
    ∃ l u, faultRetract s = { s with
        hs := faultHead s.hs, ju := u
        tg := { s.tg with phaseOpen := s.tg.phaseOpen && decide (s.hs.state ≠ .stirring) }, pli := l }
      ∧ LineKeeps s.pli l ∧ LeftStirring s u := by
  obtain ⟨l, u, he, hk, hu⟩ := enterRetracting_eq s
  refine ⟨l, u, ?_, hk, hu⟩
  simp only [faultRetract, h, if_true, he, State.withHs, faultHead]

/-- R115 for a head that is not. -/
theorem faultRetract_of_not_working (s : State) (h : s.hs.state.working = false) : faultRetract s = s := by
  simp [faultRetract, h]

theorem enterHalted_eq (s : State) :
    ∃ l, enterHalted s = { s with
        hs := { s.hs with state := .halted, phase := 0, spindle := 0, trim := 0, retractPending := false, weld := none }
        dp := { s.dp with enable := false }, pli := l } ∧ LineKeeps s.pli l := by
  obtain ⟨l, h, k⟩ := enterHead_eq .halted s
  exact ⟨l, by simp [enterHalted, h, State.withHs, State.withDp], k⟩

theorem enterParked_eq (s : State) :
    ∃ l, enterParked s = { s with
        hs := { s.hs with state := .parked, phase := 0, retractPending := false, weld := none }, pli := l } ∧ LineKeeps s.pli l := by
  obtain ⟨l, h, k⟩ := enterHead_eq .parked s
  exact ⟨l, by simp [enterParked, h, State.withHs], k⟩

theorem enterStirring_eq (w : WeldParams) (s : State) :
    ∃ l, enterStirring w s = { s with
        hs := { s.hs with state := .stirring, phase := 0, trim := 0, zCommand := w.depth }
        tg := { s.tg with phaseOpen := s.tg.target.isSome, stirCount := 0 }, pli := l } ∧ LineKeeps s.pli l := by
  obtain ⟨l, h, k⟩ := enterHead_eq .stirring s
  exact ⟨l, by simp [enterStirring, h, State.withHs, State.withTg], k⟩

theorem forceStep_eq (w : WeldParams) (s : State) :
    ∃ l, forceStep w s = { s with
        hs := { s.hs with
          trim := clampInt (-(s.constants.trimLimit : Int)) s.constants.trimLimit (trimSum s w)
          zCommand := trimmedDepth w.depth (clampInt (-(s.constants.trimLimit : Int)) s.constants.trimLimit (trimSum s w)) }
        su := { s.su with
          flags := if clampInt (-(s.constants.trimLimit : Int)) s.constants.trimLimit (trimSum s w) ≠ trimSum s w then
            s.su.flags ||| (1#14 <<< AttentionFlag.forceSaturated.bit) else s.su.flags }
        pli := l } ∧ LineKeeps s.pli l := by
  obtain ⟨l, h, k⟩ := raiseIf_eq
    (decide (clampInt (-(s.constants.trimLimit : Int)) s.constants.trimLimit (trimSum s w) ≠ trimSum s w)) .forceSaturated
    (s.withHs { s.hs with
      trim := clampInt (-(s.constants.trimLimit : Int)) s.constants.trimLimit (trimSum s w)
      zCommand := trimmedDepth w.depth (clampInt (-(s.constants.trimLimit : Int)) s.constants.trimLimit (trimSum s w)) })
  refine ⟨l, ?_, k⟩
  simp only [forceStep]
  rw [h]
  simp [State.withHs]

/-! ### Record close and chain's end -/

theorem closeLead_eq (k : EndKind) (u : JointUnit) (e : OpenJoint) :
    closeLead k u e = if u.currentLead = some e.id ∧ e.state = .pending then
      (if k = .complete then { e with state := .ready, age := 0 } else { e with state := .void }) else e := by
  simp [closeLead, isLead]

theorem jointsClosed_eq (k : EndKind) (u : JointUnit) : jointsClosed k u = afterClose k u := by
  simp only [jointsClosed, afterClose, openAfterClose, closedAfterClose]
  congr 1
  exact List.map_congr_left (fun e _ => closeLead_eq k u e)

theorem hasPendingLead_iff (u : JointUnit) :
    hasPendingLead u = true ↔ ∃ x ∈ u.openList, u.currentLead = some x.id ∧ x.state = .pending := by
  simp [hasPendingLead, isLead]

theorem closeJoints_eq (k : EndKind) (s : State) :
    ∃ l, closeJoints k s = { s with
        ju := afterClose k s.ju
        su := { s.su with
          flags := if hasPendingLead s.ju && k != .complete then
            s.su.flags ||| (1#14 <<< AttentionFlag.jointVoided.bit) else s.su.flags }
        pli := l } ∧ LineKeeps s.pli l := by
  obtain ⟨l, h, hk⟩ := setJoints_eq (jointsClosed k s.ju) s
  obtain ⟨l', h', hk'⟩ := raiseIf_eq (hasPendingLead s.ju && k != .complete) .jointVoided (setJoints (jointsClosed k s.ju) s)
  refine ⟨l', ?_, ?_⟩
  · simp only [closeJoints]
    rw [h', h, jointsClosed_eq]
  · rw [h] at hk'; exact hk.trans hk'

/-- Completion pending, the executor's state and the station state, set in that order. -/
theorem chainStates_eq (b : Bool) (x : ExecutorState) (y : StationState) (s : State) :
    ∃ l, setStation y (setExecutor x (setCompletionPending b s)) = { s with
        px := { s.px with completionPending := b, state := x }, su := { s.su with station := y }, pli := l }
      ∧ LineKeeps s.pli l := by
  obtain ⟨l1, h1, k1⟩ := setCompletionPending_eq b s
  obtain ⟨l2, h2, k2⟩ := setExecutor_eq x (setCompletionPending b s)
  obtain ⟨l3, h3, k3⟩ := setStation_eq y (setExecutor x (setCompletionPending b s))
  rw [h1] at h2 k2
  rw [h1, h2] at h3 k3
  refine ⟨l3, ?_, (k1.trans k2).trans k3⟩
  rw [h1, h2, h3]

theorem setCompletionPending_su (b : Bool) (s : State) : (setCompletionPending b s).su = s.su := by
  obtain ⟨l, h, _⟩ := setCompletionPending_eq b s
  rw [h]

/-- R91, R92: the chain's end with no LINE RESET pending. -/
theorem endChain_eq (e : Decision) (s : State) (h : s.su.lineResetPending = false) :
    ∃ l, endChain e s = { s with
        px := executorAfter (if e.kind.normal then .idle else .stopped) e s.px.secondary (positionReached s)
          (remainingDistance s) s
        su := { s.su with station := if e.kind.normal then .idle else .stopped }
        freeCount := freeAfterPosition s, pli := l } ∧ LineKeeps s.pli l := by
  simp only [endChain, setCompletionPending_su, State.withPx_su, State.withFree_su]
  rw [if_neg (by simp [h])]
  cases e.kind.normal
  · simp only [Bool.false_eq_true, if_false]
    obtain ⟨l, hl, k⟩ := chainStates_eq true .stopped .stopped
      { s with px := { executorAfter s.px.state e s.px.secondary (positionReached s) (remainingDistance s) s with
                       completionPending := s.px.completionPending }
               freeCount := freeAfterPosition s }
    exact ⟨l, hl, k⟩
  · simp only [if_true]
    obtain ⟨l, hl, k⟩ := chainStates_eq true .idle .idle
      { s with px := { executorAfter s.px.state e s.px.secondary (positionReached s) (remainingDistance s) s with
                       completionPending := s.px.completionPending }
               freeCount := freeAfterPosition s }
    exact ⟨l, hl, k⟩

/-- R89, R91, R92: a record closes with an end that stops the chain, with no LINE RESET pending. -/
theorem closeStopping_eq (e : Decision) (s : State) (h : s.su.lineResetPending = false) :
    ∃ l, closeStopping e s = { s with
        tg := withdrawn s.tg, ju := afterClose e.kind s.ju
        px := executorAfter (if e.kind.normal then .idle else .stopped) e s.px.secondary (positionReached s)
          (remainingDistance s) s
        su := { s.su with
          station := if e.kind.normal then .idle else .stopped
          flags := if hasPendingLead s.ju && e.kind != .complete then
            s.su.flags ||| (1#14 <<< AttentionFlag.jointVoided.bit) else s.su.flags }
        freeCount := freeAfterPosition s, pli := l } ∧ LineKeeps s.pli l := by
  obtain ⟨l1, h1, k1⟩ := closeJoints_eq e.kind s
  unfold closeStopping withdrawTarget
  rw [h1]
  obtain ⟨l2, h2, k2⟩ := endChain_eq e (State.withTg { s with
        ju := afterClose e.kind s.ju
        su := { s.su with
          flags := if hasPendingLead s.ju && e.kind != .complete then
            s.su.flags ||| (1#14 <<< AttentionFlag.jointVoided.bit) else s.su.flags }
        pli := l1 } { s.tg with target := none, phaseOpen := false }) h
  exact ⟨l2, h2, k1.trans k2⟩

/-! ### The fetch checks -/

/-- Check 2 of R77 passes exactly where every field read lies in its range. -/
theorem fieldsOk_iff (role : Role) (k : RecordKind) (r : PassRecord) : fieldsOk role k r = true ↔ FieldsInRange role k r := by
  have hr : Config.railTop = 33554431 := rfl
  have hc : Config.countTop = 65535 := rfl
  cases role <;> cases k <;> simp [fieldsOk, leadFieldsOk, trailFieldsOk, within, FieldsInRange, hr, hc] <;> omega

/-! ### A feedback message and a pending LINE RESET (R177, R181) -/

/-- With a LINE RESET pending every row that takes a message is the same taking: faults, then a completion. -/
theorem takeFeedback_of_pending (b : Bool) {s : State} (h : s.su.lineResetPending = true) :
    takeFeedback b s = takeFeedback false s := by
  simp [takeFeedback, completesFirst, h]

/-- What a LINE RESET leaves does not depend on what it clears: two states that agree in all it keeps come out alike. -/
theorem lineResetEffect_congr {s t : State} (same : Keeps [.constants, .nt, .tg, .px, .hs, .ju, .dp, .su, .pli] s t)
    (travel : t.tg.p = s.tg.p) (head : headCleared t.hs = headCleared s.hs)
    (port : { t.dp with enable := false, lostReported := false, driveReported := false }
      = { s.dp with enable := false, lostReported := false, driveReported := false })
    (line : { lineCleared t.pli with changeNoted := true } = { lineCleared s.pli with changeNoted := true }) :
    lineResetEffect t = lineResetEffect s := by
  have a := same .ownRank (by simp); have b := same .clock (by simp); have c := same .rm (by simp)
  have d := same .pm (by simp); have e := same .freeCount (by simp); have f := same .pending (by simp)
  simp only [Part.same] at a b c d e f
  simp only [lineResetEffect, noteChange, State.withPli, travelCleared, State.mk.injEq, TravelGovernor.mk.injEq] at *
  simp_all

end Sys2Proof.Machine
end

