-- ==== Sys2Proof/Laws/Memory.lean ====
section
/-! SUPPORT. Pass Memory: a byte written is read back, every other byte is left alone, and every write keeps the canonical
form. -/

namespace Sys2Proof.Machine

theorem readByte_of_lt {lo : Nat} {m : List Host.Cell} (h : cellsAbove lo m = true) {a : Nat} (ha : a < lo) :
    readByte m a = unlistedByte := by
  induction m generalizing lo with
  | nil => rfl
  | cons c t ih =>
    obtain ⟨k, v⟩ := c
    simp only [cellsAbove, Bool.and_eq_true, decide_eq_true_eq] at h
    have hk : k ≠ a := by omega
    simpa [readByte, hk] using ih h.2 (by omega)

theorem cellsAbove_mono {lo lo' : Nat} {m : List Host.Cell} (h : cellsAbove lo m = true) (hl : lo' ≤ lo) :
    cellsAbove lo' m = true := by
  cases m with
  | nil => rfl
  | cons c t =>
    obtain ⟨k, v⟩ := c
    simp only [cellsAbove, Bool.and_eq_true, decide_eq_true_eq] at h ⊢
    exact ⟨⟨by omega, h.1.2⟩, h.2⟩

/-- A write keeps the canonical form. -/
theorem cellsAbove_writeByte {lo : Nat} {m : List Host.Cell} (h : cellsAbove lo m = true) {a : Nat} (ha : lo ≤ a) (b : Byte) :
    cellsAbove lo (writeByte m a b) = true := by
  induction m generalizing lo with
  | nil => by_cases hb : b = unlistedByte <;> simp [writeByte, hb, cellsAbove, ha]
  | cons c t ih =>
    obtain ⟨k, v⟩ := c
    have hs := h
    simp only [cellsAbove, Bool.and_eq_true, decide_eq_true_eq] at h
    obtain ⟨⟨h1, h2⟩, h3⟩ := h
    unfold writeByte
    split
    · split
      · exact hs
      · simp only [cellsAbove, Bool.and_eq_true, decide_eq_true_eq]
        exact ⟨⟨ha, ‹_›⟩, ⟨by omega, h2⟩, h3⟩
    · split
      · split
        · exact cellsAbove_mono h3 (by omega)
        · simp only [cellsAbove, Bool.and_eq_true, decide_eq_true_eq]
          exact ⟨⟨ha, ‹_›⟩, cellsAbove_mono h3 (by omega)⟩
      · simp only [cellsAbove, Bool.and_eq_true, decide_eq_true_eq]
        exact ⟨⟨h1, h2⟩, ih h3 (by omega)⟩

theorem wf_writeByte {m : List Host.Cell} (h : Memory.wf m = true) (a : Nat) (b : Byte) :
    Memory.wf (writeByte m a b) = true :=
  cellsAbove_writeByte h (Nat.zero_le a) b

theorem wf_writeBytes {m : List Host.Cell} (h : Memory.wf m = true) (a : Nat) (bs : List Byte) :
    Memory.wf (writeBytes m a bs) = true := by
  induction bs generalizing m a with
  | nil => exact h
  | cons b bs ih => exact ih (wf_writeByte h a b) (a + 1)

theorem wf_reset : Memory.wf State.reset.pm = true := rfl

theorem readByte_writeByte_above {lo : Nat} {m : List Host.Cell} (h : cellsAbove lo m = true) (a x : Nat) (b : Byte) :
    readByte (writeByte m a b) x = if x = a then b else readByte m x := by
  induction m generalizing lo with
  | nil =>
    by_cases hb : b = unlistedByte <;> by_cases hx : x = a <;> simp [writeByte, readByte, hb, hx]
    exact fun e => absurd e.symm hx
  | cons c t ih =>
    obtain ⟨k, v⟩ := c
    simp only [cellsAbove, Bool.and_eq_true, decide_eq_true_eq] at h
    obtain ⟨⟨_, _⟩, h3⟩ := h
    have below : ∀ y, y ≤ k → readByte t y = unlistedByte := fun y hy => readByte_of_lt h3 (by omega)
    unfold writeByte
    split
    · split
      · by_cases hx : x = a
        · subst hx
          rw [if_pos rfl, readByte, if_neg (by omega), below _ (by omega)]
          exact ‹b = unlistedByte›.symm
        · rw [if_neg hx]
      · by_cases hx : x = a
        · simp [readByte, hx]
        · rw [if_neg hx, readByte, if_neg (Ne.symm hx)]
    · split
      · subst ‹a = k›
        by_cases hx : x = a
        · subst hx
          split
          · rw [if_pos rfl, below _ (Nat.le_refl _)]
            exact ‹b = unlistedByte›.symm
          · rw [readByte, if_pos rfl, if_pos rfl]
        · rw [if_neg hx]
          split
          · rw [readByte, if_neg (Ne.symm hx)]
          · rw [readByte, readByte, if_neg (Ne.symm hx), if_neg (Ne.symm hx)]
      · rw [readByte, readByte]
        by_cases hk : k = x
        · rw [if_pos hk, if_pos hk, if_neg (by omega)]
        · rw [if_neg hk, if_neg hk, ih h3]

/-- A read after a write gives the byte written, and a write leaves every other byte alone. -/
theorem readByte_writeByte {m : List Host.Cell} (h : Memory.wf m = true) (a x : Nat) (b : Byte) :
    readByte (writeByte m a b) x = if x = a then b else readByte m x :=
  readByte_writeByte_above h a x b

/-- A write of several bytes leaves every byte outside them alone. -/
theorem readByte_writeBytes_outside {m : List Host.Cell} (h : Memory.wf m = true) (a x : Nat) (bs : List Byte)
    (hx : x < a ∨ a + bs.length ≤ x) : readByte (writeBytes m a bs) x = readByte m x := by
  induction bs generalizing m a with
  | nil => rfl
  | cons b bs ih =>
    simp only [List.length_cons] at hx
    rw [writeBytes, ih (wf_writeByte h a b) (a + 1) (by omega), readByte_writeByte h, if_neg (by omega)]

/-- The bytes written are read back. -/
theorem readBytes_writeBytes {m : List Host.Cell} (h : Memory.wf m = true) (a : Nat) (bs : List Byte) :
    readBytes (writeBytes m a bs) a bs.length = bs := by
  induction bs generalizing m a with
  | nil => rfl
  | cons b bs ih =>
    rw [List.length_cons, readBytes, writeBytes, ih (wf_writeByte h a b) (a + 1),
      readByte_writeBytes_outside (wf_writeByte h a b) (a + 1) a bs (by omega), readByte_writeByte h, if_pos rfl]

/-- Reading bytes depends on those bytes alone. -/
theorem readBytes_congr {m m' : List Host.Cell} (a n : Nat) (h : ∀ x, a ≤ x → x < a + n → readByte m' x = readByte m x) :
    readBytes m' a n = readBytes m a n := by
  induction n generalizing a with
  | zero => rfl
  | succ n ih =>
    rw [readBytes, readBytes, h a (Nat.le_refl a) (by omega), ih (a + 1) (fun x h1 h2 => h x (by omega) (by omega))]

/-- A record outside those written reads as before. -/
theorem readRecord_writeBytes_outside {m : List Host.Cell} (h : Memory.wf m = true) (i j : Nat) (bs : List Byte)
    (hj : j < i ∨ i + bs.length / Config.recordBytes ≤ j) (hl : Config.recordBytes ∣ bs.length) :
    readRecord (writeBytes m (Config.recordBytes * i) bs) j = readRecord m j := by
  unfold readRecord
  rw [readBytes_congr]
  intro x h1 h2
  obtain ⟨n, hn⟩ := hl
  simp only [Config.recordBytes] at h1 h2 hj hn ⊢
  exact readByte_writeBytes_outside h _ _ _ (by omega)

end Sys2Proof.Machine
end

