-- ==== Sys2Proof/Laws/Travel.lean ====
section
/-! SUPPORT. The integer square root, the clamps, the ramp and the new speed: their bounds. -/

namespace Sys2Proof.Machine

theorem isqrtBits_spec (k r n : Nat) (hl : r * r ≤ n) (hu : n < (r + 2 ^ k) * (r + 2 ^ k)) :
    isqrtBits k r n * isqrtBits k r n ≤ n ∧ n < (isqrtBits k r n + 1) * (isqrtBits k r n + 1) := by
  induction k generalizing r with
  | zero => simpa [isqrtBits] using ⟨hl, hu⟩
  | succ k ih =>
    rw [isqrtBits, forced_eq]
    split
    · refine ih _ ‹_› ?_
      rwa [Nat.add_assoc, ← Nat.two_mul, ← pow_succ']
    · exact ih _ hl (by omega)

/-- The greatest integer whose square does not exceed `n`. -/
theorem isqrt_spec (n : Nat) : isqrt n * isqrt n ≤ n ∧ n < (isqrt n + 1) * (isqrt n + 1) := by
  refine isqrtBits_spec _ 0 n (Nat.zero_le n) ?_
  have h1 : n < 2 ^ (n.log2 + 1) := Nat.lt_log2_self
  have h2 : 2 ^ (n.log2 + 1) ≤ 2 ^ ((n.log2 / 2 + 1) + (n.log2 / 2 + 1)) := Nat.pow_le_pow_right (by norm_num) (by omega)
  rw [Nat.zero_add, ← pow_add]
  omega

theorem isqrt_le {n r : Nat} (h : n < (r + 1) * (r + 1)) : isqrt n ≤ r := by
  have h1 := (isqrt_spec n).1
  by_contra hc
  have h2 : (r + 1) * (r + 1) ≤ isqrt n * isqrt n := Nat.mul_le_mul (by omega) (by omega)
  omega

theorem le_isqrt {n r : Nat} (h : r * r ≤ n) : r ≤ isqrt n := by
  have h1 := (isqrt_spec n).2
  by_contra hc
  have h2 : (isqrt n + 1) * (isqrt n + 1) ≤ r * r := Nat.mul_le_mul (by omega) (by omega)
  omega

theorem clampNat_bounds {lo hi : Nat} (h : lo ≤ hi) (x : Nat) : lo ≤ clampNat lo hi x ∧ clampNat lo hi x ≤ hi := by
  unfold clampNat; omega

theorem clampNat_eq_self {lo hi x : Nat} (h1 : lo ≤ x) (h2 : x ≤ hi) : clampNat lo hi x = x := by
  unfold clampNat; omega

theorem clampInt_bounds {lo hi : Int} (h : lo ≤ hi) (x : Int) : lo ≤ clampInt lo hi x ∧ clampInt lo hi x ≤ hi := by
  unfold clampInt; omega

/-- A new speed exceeds none of its three bounds. -/
theorem newSpeed_le (c : Constants) (v target d : Nat) :
    newSpeed c v target d ≤ rampedSpeed c.accel c.decel v target
      ∧ newSpeed c v target d ≤ permittedSpeed c.decel (min d Config.distanceClamp) ∧ newSpeed c v target d ≤ d := by
  unfold newSpeed; omega

/-- The ramp exceeds neither the previous speed by more than the acceleration nor both it and the target. -/
theorem rampedSpeed_le (a d v target : Nat) :
    rampedSpeed a d v target ≤ v + a ∧ rampedSpeed a d v target ≤ max v target := by
  unfold rampedSpeed; split <;> omega

end Sys2Proof.Machine
end

