-- ==== Sys2Proof/WellFormed.lean ====
section
/-! DEFINITION. The commands a sender means: the bytes of a frame row are a whole frame of that row, from a sender that may
send it. A command that is not well formed has its meaning all the same (R146, R147, log 9). -/

namespace Sys2Proof

open Sys2Proof.Machine

/-- The sender may send the kind: 8 to 15 for the cell's frames, 0 to 7 for a beacon (R143, R147). -/
def senderFits (k : FrameKind) (sender : Nat) : Bool :=
  if k.fromCell then decide (8 ≤ sender ∧ sender ≤ 15) else decide (sender < 8)

/-- The destination of a request that is answered is one address (R147). -/
def destFits (k : FrameKind) (dest : Nat) : Bool :=
  if k.answered then decide (dest < 8) else decide (dest < 8 ∨ dest = 255)

/-- A received frame of kind `k`: its code, class, sender, destination and fixed length (12.2, R143, R147). -/
def frameFits (k : FrameKind) (f : ReceivedFrame) : Bool :=
  decide (f.kindCode = k.code) && decide (f.cls = k.cls) && senderFits k f.sender && destFits k f.dest
    && k.fixedLength.all (fun n => decide (f.payload.length = n))

/-- The bytes are a whole frame of kind `k` whose check sequence holds (R146). -/
def isFrame (k : FrameKind) (bs : List Byte) : Bool :=
  (parseFrame bs).any (frameFits k)

/-- The bytes are a whole STATUS REQUEST that names this section, or no known one (R184). -/
def isRequest (sec : Option Section) (bs : List Byte) : Bool :=
  (parseFrame bs).any (fun f => frameFits .statusRequest f && decide (Section.ofCode (fieldAt f.payload 0 1) = sec))

/-- The arbitration field of another station's frame: a sender address of 0 to 15 (R142, R143). -/
def arbitrationFits (b : Byte) : Bool :=
  decide (b.toNat % 64 ≤ 15)

/-- A command is well formed. A discarded frame and a feedback message may be any bytes. -/
def Instr.wf : Instr → Bool
  | .powerUp _ => true
  | .intervalClockExpiry _ => true
  | .neighbourTableAgeing => true
  | .entryGoesSilent _ => true
  | .travelComputation => true
  | .stall => true
  | .holdExpired => true
  | .headExpiryWork => true
  | .spinTimeout => true
  | .plungeTimeout => true
  | .dwellEnd => true
  | .forceLost => true
  | .retractTimeout => true
  | .pendingRetractStart => true
  | .jointUnitExpiry => true
  | .coolingRunsOut => true
  | .pauseEnd => true
  | .feedbackLost => true
  | .demandMessage => true
  | .beaconPeriodDue => true
  | .holdOffEnd => true
  | .frameStart rivals => rivals.all arbitrationFits
  | .frameLeftLine => true
  | .frameDiscarded _ => true
  | .beacon bs => isFrame .beacon bs
  | .heldRecordStart => true
  | .halt bs => isFrame .halt bs
  | .lineReset bs => isFrame .lineReset bs
  | .lineResetTakesEffect => true
  | .setup bs => isFrame .setup bs
  | .jobStart bs => isFrame .jobStart bs
  | .jobClear bs => isFrame .jobClear bs
  | .override bs => isFrame .override bs
  | .passLoad bs => isFrame .passLoad bs
  | .regionLoad bs => isFrame .regionLoad bs
  | .statusRequestStation bs => isRequest (some .station) bs
  | .statusRequestCompletion bs => isRequest (some .completion) bs
  | .statusRequestAttention bs => isRequest (some .attention) bs
  | .statusRequestJoints bs => isRequest (some .joints) bs
  | .statusRequestFormat bs => isRequest none bs
  | .feedbackReceived _ => true
  | .feedbackTaken => true
  | .spinUpComplete => true
  | .plungeComplete => true
  | .retractComplete => true
  | .recordClose => true
  | .emergencyStopAsserted => true
  | .emergencyStopReleased => true
  | .clampLineFalse => true
  | .clampLineTrue => true

end Sys2Proof
end

