-- ==== Sys2Proof/Tests/Slice0.lean ====
section
/-! SUPPORT. The model's own tests: what WellFormed refuses, the spec's worked figures (sections 1.7, 2.9, 6.13, 7.5, 12),
and, for every statement with hypotheses, a concrete state and operands that meet them. -/

namespace Sys2Proof.Tests

open Sys2Proof.Machine

/-- The state a command leaves. -/
def after (c : Instr) (s : State) : State :=
  match exec c s with
  | .next t => t
  | _ => s

/-! ### WellFormed refuses an ill-formed command, check by check -/

theorem test_wf_halt : Instr.wf (.halt (cellFrame .halt 8 255 [])) = true := by decide
/-- Sender 3 is a carriage, not the cell. -/
theorem test_wf_sender : Instr.wf (.halt (cellFrame .halt 3 255 [])) = false := by decide
/-- A PASS LOAD to every station. -/
theorem test_wf_dest : Instr.wf (.passLoad (cellFrame .passLoad 8 255 [0, 0, 0])) = false := by decide
/-- A HALT with a payload. -/
theorem test_wf_length : Instr.wf (.halt (cellFrame .halt 8 255 [0])) = false := by decide
/-- A frame of another kind. -/
theorem test_wf_kind : Instr.wf (.halt (cellFrame .lineReset 8 255 [])) = false := by decide
/-- A frame of another class. -/
theorem test_wf_class : Instr.wf (.halt (frameBytes 2 8 255 1 [])) = false := by decide
/-- A frame whose check sequence differs. -/
theorem test_wf_check : Instr.wf (.halt [8, 255, 1, 0, 0, 0]) = false := by decide
/-- A beacon from a cell address. -/
theorem test_wf_beacon_sender : Instr.wf (.beacon (frameBytes 2 9 255 16 [])) = false := by decide
/-- A request for section 2 under the row of section 1. -/
theorem test_wf_section : Instr.wf (.statusRequestStation (cellFrame .statusRequest 8 0 [2, 0])) = false := by decide
/-- A rival's arbitration field with sender 20. -/
theorem test_wf_rival : Instr.wf (.frameStart [20]) = false := by decide

/-! ### Layouts (chapter 12) -/

/-- The check of R190 over the nine digits, the usual test vector of this generator, preset and bit order. -/
theorem test_check_digits : checkOf [0x31, 0x32, 0x33, 0x34, 0x35, 0x36, 0x37, 0x38, 0x39] = 0x29B1 := by decide
/-- A HALT from address 8 to all: class 0, sender 8; 255; kind 1; length 0 (12.2). -/
theorem test_halt_header : (cellFrame .halt 8 255 []).take 4 = [0x08, 0xFF, 0x01, 0x00] := by decide
/-- A record's first word: WELD with CHAIN, lead id 5, trail id 6, plunge rate 20; its second: rate 100, cool dwell 750 (12.7). -/
theorem test_record_word :
    let r := recordOfBytes ([0x18, 0x05, 0x06, 0x14, 0x00, 0x64, 0x02, 0xEE] ++ List.replicate 24 0)
    r.kind = some .weld ∧ r.chain = true ∧ r.cont = false ∧ r.leadId = 5 ∧ r.trailId = 6 ∧ r.plungeRate = 20
      ∧ r.rate = 100 ∧ r.coolDwell = 750 := by decide
/-- Words 4 to 7: a start of 1 is the lowest bit of the first 25, bit 7 of word 4's last byte (12.7). -/
theorem test_record_start :
    (recordOfBytes (List.replicate 16 0 ++ [0, 0, 0, 0x80] ++ List.replicate 12 0)).start = 1 := by decide
/-- No row of the table gives bits: no word spells a command. -/
theorem test_decode_none : decodeTableWord 16 0x1234 = none := rfl

/-! ### Reset -/

theorem test_reset_station : State.reset.su.station = .unconfigured ∧ State.reset.hs.forceAge = 65535 := by decide
/-- POWER_UP with the strap pins at 5 reads own rank 5 (R1). -/
theorem test_powerUp_rank :
    (after (.powerUp { straps := 5, estopAsserted := false, clampMade := true, lineBusy := false }) State.reset).ownRank = 5 := by
  decide

/-! ### Chapter 1 -/

/-- The table of R3. -/
theorem test_adjacent :
    upperNeighbour 2 0b00010111 = some 4 ∧ lowerNeighbour 2 0b00010111 = some 1 ∧ upperNeighbour 2 0b00011111 = some 3
      ∧ upperNeighbour 0 0b00000111 = some 1 ∧ lowerNeighbour 0 0b00000111 = none ∧ upperNeighbour 5 0b00100100 = none
      ∧ lowerNeighbour 5 0b00100100 = some 2 ∧ upperNeighbour 3 0b00001000 = none := by decide

/-- 1.7: at age 24, the stale limit, an entry is LIVE; at 25 it goes SILENT. -/
theorem test_ageing :
    (ageEntry 24 { rank := 1, liveness := .live, age := 23 }).liveness = .live
      ∧ (ageEntry 24 { rank := 1, liveness := .live, age := 24 }).liveness = .silent := by decide

/-! ### Chapter 2 -/

/-- 2.9, a weld under a slowing edge. -/
def slowingEdge : State :=
  { ownRank := 2
    nt := { view := 0b00001100, entries := (freshEntries 2).map (fun e => if e.rank = 3 then
      { e with liveness := .live, age := 6
               content := some { position := some 9620000, direction := .up, speed := 90, openList := [], closedList := [] } }
      else e) }
    constants := { railMax := 25000000 }
    rm := { enable := true, base := 7000000, length := 2000000, kind := .edge, derate := 12, offset := 0 } :: List.replicate 7 {}
    tg := { p := some 8000000, v := 96, target := some ⟨.weld, 8500000, 100⟩, phaseOpen := true, lastEnd := some 8500000 }
    px := { state := .active, overrideInForce := 110 }, hs := { state := .stirring }, su := { station := .running } }

theorem test_slowing_edge :
    fenceAt slowingEdge 8000000 = 8119916 ∧ targetSpeed slowingEdge = 82
      ∧ (after .travelComputation slowingEdge).tg.v = 92 ∧ (after .travelComputation slowingEdge).tg.p = some 8000092
      ∧ (after .travelComputation slowingEdge).flag .fenceIntrusion = false := by decide

/-- 2.9, closing on the end: 87, 83, 79, 75. -/
theorem test_closing :
    newSpeed {} 90 100 1000 = 87 ∧ newSpeed {} 87 100 913 = 83 ∧ newSpeed {} 83 100 830 = 79 ∧ newSpeed {} 79 100 751 = 75 := by
  decide

/-- The table of R30. -/
theorem test_permitted : permittedSpeed 4 0 = 0 ∧ permittedSpeed 4 10 = 7 ∧ permittedSpeed 4 501000 = 2000 := by decide

/-- 2.9, a fence that jumps nearer. -/
def jumpsNearer : State :=
  { nt := { view := 0b00000011, entries := (freshEntries 0).map (fun e => if e.rank = 1 then
      { e with liveness := .live, age := 1
               content := some { position := some 6520000, direction := .up, speed := 0, openList := [], closedList := [] } }
      else e) }
    tg := { p := some 5000000, v := 600, target := some ⟨.move, 9000000, 800⟩, phaseOpen := true, lastEnd := some 9000000 }
    px := { state := .active }, su := { station := .running } }

theorem test_jumps_nearer :
    (after .travelComputation jumpsNearer).tg.v = 397 ∧ (after .travelComputation jumpsNearer).tg.p = some 5000397
      ∧ (after .travelComputation jumpsNearer).flag .fenceIntrusion = true := by decide

/-! ### Chapter 6 -/

/-- 6.13, one force step. -/
def oneForceStep : State :=
  { constants := { forceGain := 40, maxTrimStep := 25 }
    rm := { enable := true, base := 0, length := 100, kind := .solid, derate := 16, offset := -50 } :: List.replicate 7 {}
    tg := { p := some 10, v := 5 }
    hs := { state := .stirring, trim := 480, force := 1690, forceAge := 0
            weld := some { rpm := 1200, depth := 5800, plungeRate := 20, dwell := 250, setpoint := 1800, cont := false } } }

theorem test_force_step :
    (after .headExpiryWork oneForceStep).hs.trim = 500 ∧ (after .headExpiryWork oneForceStep).hs.zCommand = 6300
      ∧ (after .headExpiryWork oneForceStep).flag .forceSaturated = true := by decide
/-- The step truncates toward zero: −2440 / 64 is −38. -/
theorem test_trim_step : trimStep 40 64 60 = 37 ∧ trimStep 40 64 (-61) = -38 ∧ trimStep 40 25 (-61) = -25 := by decide

/-- R109: a force taken in SPINNING_UP is not compared, though its message completes the spin-up; one in PLUNGING is. -/
theorem test_force_compared :
    let m : Feedback := { position := 10, z := 0, atSpeed := true, zClear := false, force := 4095, forceValid := true, faultCode := 0 }
    let s (h : HeadState) : State :=
      { tg := { p := some 10 }, hs := { state := h }, dp := { enable := true, slot := some m }, su := { station := .running } }
    (after .spinUpComplete (s .spinningUp)).hs.state = .plunging ∧ (after .spinUpComplete (s .spinningUp)).flag .fault = false
      ∧ (after .feedbackTaken (s .plunging)).flag .fault = true := by decide
/-- R22: a PAUSE start sets the stall counter to 0. -/
theorem test_pause_clears_stall :
    let r := recordOfBytes ([0x40, 0, 0, 0, 0, 5, 0, 0] ++ List.replicate 24 0)
    let t := after .recordClose { tg := { p := some 10, stallCount := 9 }, px := { state := .fetching, record := some r }
                                  su := { station := .running } }
    r.kind = some .pause ∧ t.px.state = .active ∧ t.px.pauseCount = 5 ∧ t.tg.stallCount = 0 := by decide
/-- R172: with the enable off the demand message carries a spindle rpm of 0. -/
theorem test_demand_enable :
    let s (on : Bool) : State := { hs := { spindle := 1000 }, dp := { enable := on } }
    (demandNow (s true)).spindle = 1000 ∧ (demandNow (s false)).spindle = 0 := by decide
/-- R73, R94: a HALT after an accepted JOB START meets its fetch, and the chain ends HALTED. -/
theorem test_halt_meets_fetch :
    let s : State := { tg := { p := some 10 }, su := { station := .idle } }
    let t := after (.jobStart (cellFrame .jobStart 8 255 ([1, 0, 3] ++ List.replicate 14 0))) s
    t.px.state = .fetching ∧ (after (.halt (cellFrame .halt 8 255 [])) t).px.completion.kind = some .halted := by decide

/-! ### Chapter 7 -/

/-- The table of R136. -/
theorem test_closed_list :
    pushClosed 9 [] = [9] ∧ pushClosed 9 [4, 9, 12] = [4, 12, 9] ∧ pushClosed 20 [4, 12, 9] = [4, 12, 9, 20]
      ∧ pushClosed 31 [4, 12, 9, 20] = [12, 9, 20, 31] ∧ pushClosed 12 [12, 9, 20, 31] = [9, 20, 31, 12] := by decide

/-- 7.5, E0: rank 3's release test at 10,200,043 with release point 10,200,000. -/
theorem test_release :
    let s : State := { tg := { p := some 10200043 }, hs := { state := .stirring }
                       ju := { openList := [⟨5, 2, .pending, 0, 10200000⟩], currentLead := some 5 } }
    (after .jointUnitExpiry s).ju.openList = [⟨5, 2, .ready, 0, 10200000⟩] := by decide

/-! ### States for the witnesses -/

/-- A WELD from 1000 to 5000 at 100. -/
def weldRecord : PassRecord :=
  { kindCode := 1, chain := false, cont := false, tolerate := false, notify := false, leadId := 0, trailId := 0
    plungeRate := 50, rate := 100, coolDwell := 0, plungeDepth := 6000, rpm := 1000, plungeDwell := 500, setpoint := 1200
    start := 1000, endPos := 5000, release := 0, entryX := 0, standoff := 0 }
def moveRecord : PassRecord := { weldRecord with kindCode := 3, rate := 2000 }
def dryRecord : PassRecord := { weldRecord with kindCode := 2 }
def pauseRecord : PassRecord := { weldRecord with kindCode := 4 }
def weldOf (cont : Bool) : WeldParams :=
  { rpm := 1000, depth := 6000, plungeRate := 50, dwell := 500, setpoint := 1200, cont := cont }

/-- A station IDLE at 1000 with its clamps made. -/
def idleAt : State :=
  { tg := { p := some 1000, lastEnd := none }, dp := { clamp := true, age := 0 }, su := { station := .idle } }
/-- A station RUNNING the record in an executor state. -/
def runs (x : ExecutorState) (r : PassRecord) : State :=
  { idleAt with su := { station := .running }, px := { state := x, record := some r, passed := true }
                dp := { clamp := true, age := 0, enable := true } }
/-- A MOVE under way. -/
def moves : State :=
  { runs .active moveRecord with
    tg := { p := some 1000, v := 4, target := some ⟨.move, 5000, 2000⟩, phaseOpen := true, lastEnd := some 5000 } }
/-- A WELD under way with the head in a state. -/
def welds (h : HeadState) : State :=
  { runs .active weldRecord with
    tg := { p := some 1000, v := 4, target := some ⟨.weld, 5000, 100⟩, phaseOpen := h == .stirring, lastEnd := some 5000 }
    hs := { state := h, weld := some (weldOf false), zCommand := 6000, spindle := 1000, forceAge := 0 } }
/-- The same, a silent neighbour ahead. -/
def silentAhead (s : State) : State :=
  { s with nt := { s.nt with view := 0b00000011 } }
/-- A record whose end is decided. -/
def ending (x : ExecutorState) (k : EndKind) (h : HeadState) : State :=
  { runs x weldRecord with
    px := { state := x, record := some weldRecord, passed := true, decided := some ⟨k, none⟩ }
    hs := { state := h, weld := some (weldOf false) } }
/-- A retracting head of a station with no chain. -/
def retracts (z : Nat) : State :=
  { idleAt with hs := { state := .retracting, zCommand := z }, dp := { clamp := true, age := 0, enable := true } }
/-- A fetch of a record in the fresh role. -/
def fetches (r : PassRecord) : State :=
  { runs .fetching r with px := { state := .fetching, record := some r } }
/-- A fetch of a record as a continuation of a WELD up the rail. -/
def continues (r : PassRecord) : State :=
  { runs .fetching r with
    px := { state := .fetching, role := .continuation, record := some r }
    hs := { state := .stirring, weld := some (weldOf true) } }
/-- A chain under way in every way a stopping cause can meet it: held, fetching in both roles, ACTIVE at rest and with the head
at work, a normal end and a stopping cause decided, and HALTING. -/
def underWay : List State :=
  [runs .waitSlot weldRecord, fetches moveRecord, continues weldRecord, { moves with tg := { moves.tg with v := 0 } },
    welds .stirring, welds .dwelling, ending .awaitHeadEnd .complete .retracting, ending .awaitHeadEnd .fault .retracting,
    ending .halting .halted .stirring]
/-- A feedback message that is no fault. -/
def goodFeedback : Feedback :=
  { position := 1000, z := 6000, atSpeed := true, zClear := true, force := 1000, forceValid := true, faultCode := 0 }
def takes (m : Feedback) (s : State) : State := { s with dp := { s.dp with slot := some m } }

/-- A frame of a fixed length passes. -/
theorem taken_fixed {k : FrameKind} {sender dest n : Nat} {payload : List Byte} {s : State}
    (h : (k.fromCell && decide (8 ≤ sender ∧ sender ≤ 15) && (decide (dest = s.ownRank.val) || (decide (dest = 255) && !k.answered))
      && decide (k.fixedLength = some n) && decide (payload.length = n) && decide (payload.length ≤ Config.longestPayload)
      && decide (s.pli.reception ≠ .notTaken) && (!k.answered || decide (repliesHeld s < Config.replyCapacity))) = true) :
    Taken k sender dest payload s := by
  simp only [Bool.and_eq_true, Bool.or_eq_true, decide_eq_true_eq, Bool.not_eq_true'] at h
  obtain ⟨⟨⟨⟨⟨⟨⟨h1, h2, h3⟩, h4⟩, h5⟩, h6⟩, h7⟩, h8⟩, h9⟩ := h
  exact ⟨h1, h2, h3, h4, (fun m hm => by rw [h5] at hm; cases hm; exact h6), h7, h8,
    fun ha => h9.resolve_left (by simp [ha])⟩

/-- A frame of no fixed length passes. -/
theorem taken_free {k : FrameKind} {sender dest : Nat} {payload : List Byte} {s : State}
    (h : (k.fromCell && decide (8 ≤ sender ∧ sender ≤ 15) && (decide (dest = s.ownRank.val) || (decide (dest = 255) && !k.answered))
      && decide (k.fixedLength = none) && decide (payload.length ≤ Config.longestPayload)
      && decide (s.pli.reception ≠ .notTaken) && (!k.answered || decide (repliesHeld s < Config.replyCapacity))) = true) :
    Taken k sender dest payload s := by
  simp only [Bool.and_eq_true, Bool.or_eq_true, decide_eq_true_eq, Bool.not_eq_true'] at h
  obtain ⟨⟨⟨⟨⟨⟨h1, h2, h3⟩, h4⟩, h5⟩, h7⟩, h8⟩, h9⟩ := h
  exact ⟨h1, h2, h3, h4, (fun m hm => by rw [h5] at hm; cases hm), h7, h8, fun ha => h9.resolve_left (by simp [ha])⟩

/-! ### Witnesses: the machine as a whole -/

theorem witness_StepTakesFrontCommand :
    ({ idleAt with pending := [.stall, .halt []] } : State).pending = .stall :: [.halt []] ∧ idleAt.pending = [] := by
  decide

theorem idle_inRange : InRange { idleAt with pending := [.demandMessage] } where
  memory := by decide
  windows := by
    refine ⟨by decide, fun w hw => ?_⟩
    rw [List.eq_of_mem_replicate hw]; unfold RegionWindow.inRange; decide
  constants := by unfold Constants.inRange; decide
  view := by decide
  entries := by
    refine ⟨by decide, fun e he => ?_⟩
    obtain ⟨r, _, rfl⟩ := List.mem_map.mp he
    unfold NeighbourEntry.lawful; decide +revert
  speed := by decide
  position := fun p hp => by cases hp; decide
  trim := by decide
  enable := by decide
  replies := by decide
  period := by decide
  noted := by decide
  closed := by decide

theorem idle_safe : Safe { idleAt with pending := [.demandMessage] } where
  ranges := idle_inRange
  bounds := {
    travel := ⟨by decide, by decide, (fun _ h => by cases h), (fun _ h => by cases h), fun _ h => by cases h⟩
    executor := ⟨by decide, by decide, by decide, by decide, fun _ h => by cases h⟩
    completion := by decide
    record := fun _ h => by cases h
    heldRecord := fun h => by cases h
    notify := fun _ h => by cases h
    head := by decide
    weld := fun _ h => by cases h
    openJoints := by decide
    awaited := fun _ h => by cases h
    closed := by decide
    port := ⟨by decide, (fun _ h => by cases h), fun _ h => by cases h⟩
    beacons := fun e he c hc => by
      obtain ⟨r, _, rfl⟩ := List.mem_map.mp he
      cases hc }
  discipline := {
    station := rfl, head := rfl, record := trivial, travel := fun h => absurd h (by decide)
    target := fun h => absurd rfl h, pendingRetract := fun h => absurd h (by decide)
    stopped := fun h => absurd h (by decide), decided := ⟨fun h => absurd h (by decide), fun h => absurd h (by decide)⟩
    resetPending := fun h => absurd h (by decide), unconfigured := fun h => absurd h (by decide)
    openList := by decide }

theorem witness_RangesKept : ∃ t, Safe { idleAt with pending := [.demandMessage] }
    ∧ step { idleAt with pending := [.demandMessage] } = .next t := ⟨_, idle_safe, rfl⟩

theorem witness_DisciplineKept : ∃ t, InRange { idleAt with pending := [.demandMessage] }
    ∧ Disciplined { idleAt with pending := [.demandMessage] }
    ∧ step { idleAt with pending := [.demandMessage] } = .next t := ⟨_, idle_inRange, idle_safe.discipline, rfl⟩

/-- The count wraps at its top; a PASS LOAD and a REGION LOAD outside RUNNING write. -/
theorem witness_KeptByOtherCommands :
    (∃ t, exec (.intervalClockExpiry .portExecutorLine) { idleAt with clock := 4294967295 } = .next t ∧ t.clock = 0)
    ∧ (∃ t, exec (.passLoad (cellFrame .passLoad 8 0 ([0, 0, 1] ++ List.replicate 32 1))) idleAt = .next t ∧ t.pm ≠ idleAt.pm)
    ∧ ∃ t, exec (.regionLoad (cellFrame .regionLoad 8 0 (regionPayload 7 { enable := true }))) idleAt = .next t ∧ t.rm ≠ idleAt.rm :=
  ⟨⟨_, rfl, by decide⟩, ⟨_, rfl, by decide⟩, ⟨_, rfl, by decide⟩⟩

theorem witness_FlagsAreSticky :
    let s : State := { moves with px := { moves.px with decided := none }, su := { moves.su with flags := 1 } }
    Disciplined s ∧ (∃ t, exec .travelComputation s = .next t) ∧ s.flag .notify = true := by
  refine ⟨?_, ⟨_, rfl⟩, by decide⟩
  exact {
    station := ⟨by decide, by decide⟩, head := rfl
    record := ⟨_, rfl, rfl, fun h => absurd h (by decide)⟩
    travel := fun _ => ⟨rfl, _, rfl, fun h => absurd h (by decide)⟩
    target := fun _ => .inl rfl, pendingRetract := fun h => absurd h (by decide)
    stopped := fun h => absurd h (by decide), decided := ⟨fun h => absurd h (by decide), fun h => absurd h (by decide)⟩
    resetPending := fun h => absurd h (by decide), unconfigured := fun h => absurd h (by decide)
    openList := by decide }

theorem witness_ReportedChangesReachTheLine :
    ∃ t, exec .emergencyStopAsserted (welds .stirring) = .next t ∧ reportedOf t ≠ reportedOf (welds .stirring) :=
  ⟨_, rfl, by decide⟩

/-! ### Witnesses: layouts -/

/-- Every field at the top of its room. -/
def topRecord : PassRecord :=
  { kindCode := 15, chain := true, cont := true, tolerate := true, notify := true, leadId := 255, trailId := 255
    plungeRate := 255, rate := 65535, coolDwell := 65535, plungeDepth := 16383, rpm := 4095, plungeDwell := 4095
    setpoint := 4095, start := 33554431, endPos := 33554431, release := 33554431, entryX := 33554431, standoff := 33554431 }

theorem witness_RecordReadBack :
    topRecord.kindCode < 16 ∧ topRecord.leadId < 256 ∧ topRecord.trailId < 256 ∧ topRecord.plungeRate < 256
    ∧ topRecord.rate < 65536 ∧ topRecord.coolDwell < 65536 ∧ topRecord.plungeDepth < 16384 ∧ topRecord.rpm < 4096
    ∧ topRecord.plungeDwell < 4096 ∧ topRecord.setpoint < 4096 ∧ topRecord.start < 33554432 ∧ topRecord.endPos < 33554432
    ∧ topRecord.release < 33554432 ∧ topRecord.entryX < 33554432 ∧ topRecord.standoff < 33554432 := by decide

theorem witness_CommandsReadBack :
    ({} : Constants).carried
    ∧ (255 < 256 ∧ (4294967295 : Nat) < 4294967296 ∧ (-32768 : Int) ≤ -32768 ∧ (-32768 : Int) ≤ 32767)
    ∧ (goodFeedback.position < 4294967296 ∧ goodFeedback.z < 65536 ∧ goodFeedback.force < 4096 ∧ goodFeedback.faultCode < 256)
    ∧ ((63 : Nat) < 64 ∧ (255 : Nat) < 256 ∧ (List.replicate 131 (0 : Byte)).length ≤ 131) := by
  unfold Constants.carried; decide +kernel

def aBeacon : OwnBeacon :=
  { station := .running, executor := .active, head := .stirring, position := some 33554431, direction := .down, summary := true
    completionPending := true, speed := 2000, index := 511, openList := [⟨255, .ready, 65535⟩, ⟨1, .void, 0⟩], closedList := [1, 255] }

theorem witness_BeaconReadBack :
    (∀ p, aBeacon.position = some p → p ≤ 33554431) ∧ aBeacon.speed ≤ 2000 ∧ aBeacon.index ≤ 511
    ∧ aBeacon.openList.length ≤ 4 ∧ (aBeacon.openList.map (fun e => e.id)).Nodup
    ∧ (∀ e ∈ aBeacon.openList, 1 ≤ e.id ∧ e.id ≤ 255 ∧ e.age ≤ 65535)
    ∧ aBeacon.closedList.length ≤ 4 ∧ aBeacon.closedList.Nodup ∧ (∀ i ∈ aBeacon.closedList, 1 ≤ i ∧ i ≤ 255)
    ∧ ((255 : Nat) < 256 ∧ aBeacon.payload.length ≤ 131) := by
  refine ⟨fun p hp => by cases hp; decide, ?_⟩
  decide

/-! ### Witnesses: the Travel Governor -/

theorem witness_PermittedSpeed :
    ((1 : Nat) ≤ 32 ∧ (32 : Nat) ≤ 32 ∧ (87 : Nat) * (87 + 4) ≤ 2 * 4 * 1000 ∧ (8388607 : Nat) ≤ 8388607 ∧ (87 : Nat) ≤ 1000)
    ∧ (1 ≤ ({} : Constants).accel ∧ 1 ≤ ({} : Constants).decel ∧ ({} : Constants).decel ≤ 32) := by decide

/-- Each clause at its boundary, with A = D = 4: a target within D below, one beyond it, one a full A above, one a full D
below; and the two kinds of state. -/
theorem witness_RampFollowsTarget :
    ((84 : Nat) ≤ min 80 (84 + 4) + 4 ∧ min 79 (84 + 4) + 4 < 84 ∧ (84 : Nat) + 4 ≤ 88 ∧ (80 : Nat) + 4 ≤ 84 ∧ (84 : Nat) ≤ 84 + 4)
    ∧ idleAt.tg.phaseOpen = false
    ∧ (moves.tg.phaseOpen = true ∧ moves.tg.target = some ⟨.move, 5000, 2000⟩ ∧ moves.tg.p = some 1000)
    ∧ ((welds .stirring).tg.phaseOpen = true ∧ (welds .stirring).tg.target = some ⟨.weld, 5000, 100⟩
      ∧ (welds .stirring).tg.p = some 1000) := by decide

/-- Both directions; a computation with a report left out; the phase closed with v above 0, a LINE RESET pending; and the two
cases without one. -/
theorem witness_TravelComputationAdvances :
    (moves.tg.p = some 1000 ∧ moves.tg.phaseOpen = true ∧ moves.su.lineResetPending = false ∧ moves.tg.dir = .up
      ∧ 0 < (after .travelComputation moves).tg.v)
    ∧ (let s : State := { moves with
         tg := { moves.tg with phaseOpen := false, dir := .down }, px := { moves.px with state := .halting }
         su := { moves.su with lineResetPending := true } }
       s.tg.p = some 1000 ∧ 0 < s.tg.v ∧ s.tg.phaseOpen = false ∧ s.su.lineResetPending = true ∧ s.tg.dir = .down)
    ∧ (idleAt.pli.changeNoted = false ∧ idleAt.tg.phaseOpen = false ∧ idleAt.tg.v = 0)
    ∧ (State.reset.tg.p = none ∧ State.reset.pli.changeNoted = false) := by decide

theorem witness_FenceIsNearest : moves.tg.dir = .up ∧ ({ moves with tg := { moves.tg with dir := .down } } : State).tg.dir = .down
    ∧ Candidate moves 1000 33554431 ∧ Candidate moves 1000 5000 :=
  ⟨rfl, rfl, .railUp rfl, .lastEnd 5000 rfl⟩

/-- A record at its end. -/
def atEnd (s : State) : State :=
  { s with tg := { s.tg with p := some 5000 } }

/-- The state's record with CHAIN and TOLERATE_SHORT set, at index `i`. -/
def chained (r : PassRecord) (i : Nat) (s : State) : State :=
  { s with px := { s.px with index := i, record := some { r with chain := true, tolerate := true } } }

/-- A MOVE without CHAIN; with it, before the last index and at it; and a WELD. -/
theorem witness_PathEndCompletes :
    (let s := atEnd moves
     s.px.state = .active ∧ s.px.record = some moveRecord ∧ s.tg.target = some ⟨.move, 5000, 2000⟩ ∧ moveRecord.endPos = 5000
       ∧ s.tg.p = some 5000 ∧ s.tg.lastEnd = some 5000 ∧ s.tg.phaseOpen = true ∧ s.tg.v ≤ s.constants.decel
       ∧ s.su.lineResetPending = false ∧ moveRecord.kind = some .move ∧ moveRecord.chain = false ∧ s.px.passed = true
       ∧ s.hs.state = .parked)
    ∧ (let s := atEnd (welds .stirring)
     s.px.state = .active ∧ s.px.record = some weldRecord ∧ s.tg.target = some ⟨.weld, 5000, 100⟩ ∧ s.tg.p = some 5000
       ∧ s.tg.lastEnd = some 5000 ∧ s.tg.phaseOpen = true ∧ s.tg.v ≤ s.constants.decel ∧ s.su.lineResetPending = false
       ∧ weldRecord.kind = some .weld ∧ weldRecord.cont = false ∧ s.hs.state = .stirring
       ∧ s.hs.weld = some (weldOf false) ∧ (weldOf false).cont = false)
    ∧ (let s := chained moveRecord 510 (atEnd moves)
     s.px.state = .active ∧ s.px.record = some { moveRecord with chain := true, tolerate := true } ∧ s.tg.p = some 5000
       ∧ s.tg.lastEnd = some 5000 ∧ s.hs.state = .parked ∧ s.px.index + 1 ≤ 511)
    ∧ 512 ≤ (chained moveRecord 511 (atEnd moves)).px.index + 1 := by decide

/-- A MOVE that stands, its stall counter at `n`. -/
def stalls (n : Nat) : State :=
  let s := silentAhead moves
  { s with tg := { s.tg with stallCount := n } }
/-- A WELD that stands, its stationary-stir counter at `n`. -/
def stirs (n : Nat) : State :=
  let s := silentAhead (welds .stirring)
  { s with tg := { s.tg with stirCount := n } }
/-- A joint awaited at 1000. -/
def awaited (st : AwaitedState) : AwaitedJoint :=
  { id := 5, partner := 1, entryX := 1100, hold := 1000, coolDwell := 750, state := st, remaining := 1 }

/-- The speed of the next computation, from 1000. -/
def speedAt (s : State) : Nat :=
  newSpeed s.constants s.tg.v (targetSpeed s) (distance (fenceAt s 1000) 1000)
/-- The state running a record at rate 1 under an override of 50, a target of 0, no neighbour ahead. -/
def targetsZero (r : PassRecord) (k : TravelKind) (s : State) : State :=
  { s with nt := idleAt.nt, px := { s.px with record := some r, overrideInForce := 50 }
           tg := { s.tg with target := some ⟨k, 5000, 1⟩ } }

/-- A MOVE at its stall limit, not tolerated and tolerated; one short of it; a WELD at its stationary-stir limit, one short of
it, and at the hold point of a VOID joint; and a state for each way STALL and HOLD_EXPIRED are without effect. -/
theorem witness_StandingEndsShort :
    (let s := stalls 7499
     s.px.state = .active ∧ s.px.record = some moveRecord ∧ moveRecord.kind = some .move ∧ s.px.passed = true
       ∧ s.hs.state = .parked ∧ s.tg.target = some ⟨.move, 5000, 2000⟩ ∧ s.tg.p = some 1000 ∧ s.tg.phaseOpen = true
       ∧ speedAt s = 0 ∧ s.tg.v ≤ s.constants.decel ∧ s.su.lineResetPending = false
       ∧ s.constants.stallLimit ≤ s.tg.stallCount + 1 ∧ moveRecord.tolerate = false)
    ∧ ((stalls 7498).tg.stallCount + 1 < (stalls 7498).constants.stallLimit ∧ speedAt (stalls 7498) = 0
       ∧ (stalls 7498).pli.changeNoted = false)
    ∧ (let s := stirs 499
     s.px.state = .active ∧ s.hs.state = .stirring ∧ s.tg.target = some ⟨.weld, 5000, 100⟩ ∧ s.tg.p = some 1000
       ∧ s.tg.phaseOpen = true ∧ speedAt s = 0 ∧ s.tg.v ≤ s.constants.decel ∧ s.pli.changeNoted = false
       ∧ s.ju.awaited = none ∧ s.constants.stirLimit ≤ s.tg.stirCount + 1)
    ∧ ((stirs 498).tg.stirCount + 1 < (stirs 498).constants.stirLimit ∧ speedAt (stirs 498) = 0)
    ∧ (let s : State := { welds .stirring with ju := { awaited := some (awaited .void) } }
       s.ju.awaited = some (awaited .void) ∧ (awaited .void).state = .void ∧ (awaited .void).hold = 1000
         ∧ speedAt s = 0)
    ∧ (let s := chained moveRecord 9 (stalls 7499)
     s.px.record = some { moveRecord with chain := true, tolerate := true } ∧ speedAt s = 0
       ∧ s.constants.stallLimit ≤ s.tg.stallCount + 1 ∧ s.px.index + 1 ≤ 511)
    ∧ (State.reset.tg.p = none ∧ idleAt.tg.phaseOpen = false ∧ idleAt.tg.target = none
      ∧ (welds .stirring).tg.target = some ⟨.weld, 5000, 100⟩ ∧ (atEnd moves).tg.p = some 5000
      ∧ 0 < speedAt moves) := by decide

/-- A DRY and a WELD at their limits with a target of 0, the fence ahead of them. -/
theorem witness_StandingEndsShort_target :
    (let s := targetsZero dryRecord .dry (stalls 7499)
     s.px.state = .active ∧ s.px.record = some dryRecord ∧ dryRecord.kind = some .dry ∧ s.px.passed = true
       ∧ s.hs.state = .parked ∧ s.tg.target = some ⟨.dry, 5000, 1⟩ ∧ s.tg.p = some 1000 ∧ s.tg.phaseOpen = true
       ∧ fenceAt s 1000 = 5000 ∧ speedAt s = 0 ∧ s.tg.v ≤ s.constants.decel ∧ s.su.lineResetPending = false
       ∧ s.constants.stallLimit ≤ s.tg.stallCount + 1 ∧ dryRecord.tolerate = false)
    ∧ (let s := targetsZero weldRecord .weld (stirs 499)
     s.px.state = .active ∧ s.hs.state = .stirring ∧ s.tg.target = some ⟨.weld, 5000, 1⟩ ∧ s.tg.p = some 1000
       ∧ s.tg.phaseOpen = true ∧ fenceAt s 1000 = 5000 ∧ speedAt s = 0 ∧ s.tg.v ≤ s.constants.decel
       ∧ s.pli.changeNoted = false ∧ s.ju.awaited = none ∧ s.constants.stirLimit ≤ s.tg.stirCount + 1) := by decide

/-! ### Witnesses: the Region Map -/

/-- Window 0 covers 100 to 109, window 1 105 to 114, OPEN. -/
def twoWindows : List RegionWindow :=
  [{ enable := true, base := 100, length := 10, kind := .edge, derate := 8, offset := 3 },
   { enable := true, base := 105, length := 10, kind := .opening, derate := 16, offset := 0 }]

/-- The last position of window 0, the first and last of window 1 alone, and the first past both. -/
theorem witness_RegionDecoding :
    (∃ w, twoWindows[0]? = some w ∧ w.enable = true ∧ w.base ≤ 109 ∧ 109 < w.base + w.length)
    ∧ (∃ w, twoWindows[1]? = some w ∧ w.enable = true ∧ w.base ≤ 114 ∧ 114 < w.base + w.length
      ∧ ∀ y, twoWindows[0]? = some y → ¬ (y.enable = true ∧ y.base ≤ 114 ∧ 114 < y.base + y.length))
    ∧ (decodeRegion twoWindows 110).window = some 1 ∧ (decodeRegion twoWindows 109).window = some 0
    ∧ (decodeRegion twoWindows 115).window = none :=
  ⟨⟨_, rfl, by decide⟩, ⟨_, rfl, by decide, by decide, by decide,
    fun y hy => by cases hy; decide⟩, by decide⟩

/-! ### Witnesses: the Neighbour Table and the joints -/

/-- A station of rank 2 with rank 1 LIVE at a position, its entry of an age. -/
def hears (age q : Nat) (x : State) : State :=
  { x with
    ownRank := 2
    nt := { view := 0b00000110, entries := (freshEntries 2).map (fun e => if e.rank = 1 then
      { e with liveness := .live, age := age
               content := some { position := some q, direction := .up, speed := 0, openList := [], closedList := [] } }
      else e) } }

theorem witness_EntriesAge :
    (idleAt.su.lineResetPending = false)
    ∧ (∃ e, entryOf (hears 48 10 moves).nt 1 = some e ∧ e.liveness = .live ∧ moves.constants.staleLimit < oneOn e.age)
    ∧ (∃ e, entryOf (hears 47 10 moves).nt 1 = some e ∧ oneOn e.age ≤ moves.constants.staleLimit)
    ∧ (∃ e, entryOf (hears 48 10 moves).nt 3 = some e ∧ e.liveness ≠ .live) :=
  ⟨by decide, ⟨_, rfl, by decide⟩, ⟨_, rfl, by decide⟩, ⟨_, rfl, by decide⟩⟩

/-- A beacon with nothing to tell, p unknown. -/
def quietBeacon : List Byte := List.replicate 18 0
/-- A beacon that reports joint 5 READY with age 750 and joint 9 closed. -/
def jointBeacon : List Byte := List.replicate 16 0 ++ [1, 1, 5, 1, 0x02, 0xEE, 9]

theorem quiet_wellFormed : ¬ Malformed quietBeacon := by
  have h1 : fieldAt quietBeacon 16 1 = 0 := by decide
  have h2 : fieldAt quietBeacon 17 1 = 0 := by decide
  intro h
  cases h with
  | stateField h => revert h; decide
  | position _ h => revert h; decide
  | speed h => revert h; decide
  | index h => revert h; decide
  | counts h => omega
  | zeroOpen i h _ => omega
  | zeroClosed i h _ => omega
  | sharedOpen i j _ h _ => omega
  | twiceClosed i j _ h _ => omega
  | openState i h _ => omega
  | length h => revert h; decide

theorem joint_wellFormed : ¬ Malformed jointBeacon := by
  have h1 : fieldAt jointBeacon 16 1 = 1 := by decide
  have h2 : fieldAt jointBeacon 17 1 = 1 := by decide
  intro h
  cases h with
  | stateField h => revert h; decide
  | position _ h => revert h; decide
  | speed h => revert h; decide
  | index h => revert h; decide
  | counts h => omega
  | zeroOpen i h k => obtain rfl : i = 0 := by omega
                      revert k; decide
  | zeroClosed i h k => obtain rfl : i = 0 := by omega
                        revert k; decide
  | sharedOpen i j _ h _ => omega
  | twiceClosed i j _ h _ => omega
  | openState i h k => obtain rfl : i = 0 := by omega
                       revert k; decide
  | length h => revert h; decide

/-- No adjacent rank's entry is LIVE with a position, so none is in conflict. -/
theorem silent_no_conflict {s : State} (h : ∀ e ∈ s.nt.entries, e.content.bind (fun c => c.position) = none) (p : Nat) :
    ¬ Conflict s p := by
  have key (r q) : ¬ LiveAt s r q := by
    rintro ⟨e, c, he, _, hc, hp⟩
    have := h e (List.mem_of_find?_eq_some he)
    rw [hc] at this
    rw [show (some c).bind (fun c => c.position) = c.position from rfl, hp] at this
    cases this
  rintro (⟨r, q, _, h, _⟩ | ⟨r, q, _, h, _⟩) <;> exact key r q h

theorem witness_BeaconFiled : BeaconTaken quietBeacon idleAt ∧ ¬ Malformed quietBeacon ∧ (1 : Rank) ≠ idleAt.ownRank
    ∧ idleAt.su.lineResetPending = false
    ∧ (∀ e ∈ idleAt.ju.openList, e.partner ≠ 1) ∧ (∀ a, idleAt.ju.awaited = some a → a.partner ≠ 1)
    ∧ ∃ t, exec (.beacon (beaconFrame 1 255 quietBeacon)) idleAt = .next t ∧ ∀ p, idleAt.tg.p = some p → ¬ Conflict t p := by
  refine ⟨⟨by decide, by decide⟩, quiet_wellFormed, by decide, rfl, by decide,
    (fun a h => by cases h), _, rfl, fun p _ => silent_no_conflict (by decide) p⟩

/-- Joint 9 open with rank 1 as the current lead, joint 5 awaited from rank 1 in a state, cool dwell `d`. -/
def meets (st : AwaitedState) (d : Nat) : State :=
  { welds .stirring with
    ju := { openList := [⟨9, 1, .ready, 3, 900⟩, ⟨7, 3, .pending, 0, 900⟩], currentLead := some 9
            awaited := some { awaited st with coolDwell := d } } }

/-- A WELD with a lead part for rank 1, held, the list full; joint 9 of rank 1 is one of its four. -/
def holds : State :=
  { runs .waitSlot { weldRecord with leadId := 5, release := 300 } with
    px := { state := .waitSlot, record := some { weldRecord with leadId := 5, release := 300 }, passed := true, leadPartner := some 1 }
    ju := { openList := [⟨9, 1, .ready, 3, 900⟩, ⟨10, 2, .ready, 3, 900⟩, ⟨11, 1, .void, 0, 900⟩, ⟨12, 1, .ready, 3, 900⟩] } }

/-- The filing that makes room for the held record. -/
theorem witness_BeaconSettlesJoints_held :
    BeaconTaken jointBeacon holds ∧ ¬ Malformed jointBeacon ∧ (1 : Rank) ≠ holds.ownRank
    ∧ (holds.su.lineResetPending = false ∧ holds.px.state = .waitSlot ∧ holds.px.role = .fresh
      ∧ holds.px.record = some { weldRecord with leadId := 5, release := 300 } ∧ holds.px.leadPartner = some 1
      ∧ holds.ju.awaited = none ∧ holds.hs.state = .parked ∧ holds.su.station = .running ∧ holds.tg.p = some 1000
      ∧ holds.dp.estop = false ∧ holds.dp.clamp = true ∧ holds.ju.openList.length ≤ 4
      ∧ ∃ e ∈ holds.ju.openList, e.partner = 1 ∧ e.id ∈ (beaconFields jointBeacon).content.closedList)
    ∧ ∃ t, exec (.beacon (beaconFrame 1 255 jointBeacon)) holds = .next t ∧ ¬ Conflict t 1000 :=
  ⟨⟨by decide, by decide⟩, joint_wellFormed, by decide, by decide, _, rfl, silent_no_conflict (by decide) 1000⟩

/-- WAITING and COOLING, the READY age 750 against a dwell of 750 and of 751. -/
theorem witness_BeaconSettlesJoints :
    BeaconTaken jointBeacon (meets .waiting 750) ∧ ¬ Malformed jointBeacon ∧ (1 : Rank) ≠ (meets .waiting 750).ownRank
    ∧ (meets .waiting 750).su.lineResetPending = false ∧ (meets .waiting 750).px.state ≠ .waitSlot
    ∧ (∃ x ∈ (beaconFields jointBeacon).content.openList, x.id = 5 ∧ x.state = .ready ∧ 750 ≤ x.age ∧ x.age < 751)
    ∧ (∃ e ∈ (meets .waiting 750).ju.openList, e.partner = 1 ∧ e.id ∈ (beaconFields jointBeacon).content.closedList
      ∧ (meets .waiting 750).ju.currentLead = some e.id)
    ∧ (∃ a, (meets .cooling 751).ju.awaited = some a ∧ a.partner = 1 ∧ a.state = .cooling)
    ∧ ∃ t, exec (.beacon (beaconFrame 1 255 jointBeacon)) (meets .waiting 750) = .next t
      ∧ ∀ p, (meets .waiting 750).tg.p = some p → ¬ Conflict t p := by
  refine ⟨⟨by decide, by decide⟩, joint_wellFormed, by decide, rfl, by decide,
    by decide, by decide, ⟨_, rfl, by decide⟩, _, rfl,
    fun p _ => silent_no_conflict (by decide) p⟩

/-- A state field, then a list count, outside its list. -/
theorem witness_MalformedBeaconDiscarded :
    BeaconTaken ((quietBeacon.set 1 4)) idleAt ∧ Malformed (quietBeacon.set 1 4) ∧ idleAt.pli.changeNoted = false
    ∧ BeaconTaken ((quietBeacon.set 16 5)) idleAt ∧ Malformed (quietBeacon.set 16 5) :=
  ⟨⟨by decide, by decide⟩, .stateField (by decide), rfl,
    ⟨by decide, by decide⟩, .counts (by decide)⟩

/-- A beacon of a carriage at 1000. -/
def standsAt1000 : List Byte := ((quietBeacon.set 7 1).set 10 0x03).set 11 0xE8

theorem stands_wellFormed : ¬ Malformed standsAt1000 := by
  have h1 : fieldAt standsAt1000 16 1 = 0 := by decide
  have h2 : fieldAt standsAt1000 17 1 = 0 := by decide
  intro h
  cases h with
  | stateField h => revert h; decide
  | position _ h => revert h; decide
  | speed h => revert h; decide
  | index h => revert h; decide
  | counts h => omega
  | zeroOpen i h _ => omega
  | zeroClosed i h _ => omega
  | sharedOpen i j _ h _ => omega
  | twiceClosed i j _ h _ => omega
  | openState i h _ => omega
  | length h => revert h; decide

/-- The chain under way in every way, not RUNNING, and RANK_CONFLICT decided already; a conflict found at an ageing, and at the
filing of rank 1's beacon, p at its position. -/
theorem witness_RankConflictStops :
    (∀ s ∈ underWay, s.tg.p = some 1000 ∧ s.su.lineResetPending = false ∧ s.su.station = .running ∧ s.px.state ≠ .idle
      ∧ s.px.state ≠ .stopped ∧ s.px.decided.all (fun x => decide (x.kind ≠ .rankConflict)) = true)
    ∧ idleAt.su.station ≠ .running
    ∧ (∃ x, (ending .awaitHeadEnd .rankConflict .retracting).px.decided = some x ∧ x.kind = .rankConflict)
    ∧ BeaconTaken quietBeacon (welds .stirring) ∧ ¬ Malformed quietBeacon
    ∧ (∃ t, exec .neighbourTableAgeing (hears 3 1000 (welds .stirring)) = .next t ∧ Conflict t 1000)
    ∧ (let s := hears 3 10 moves
     BeaconTaken standsAt1000 s ∧ ¬ Malformed standsAt1000 ∧ (1 : Rank) ≠ s.ownRank ∧ s.tg.p = some 1000
       ∧ s.su.lineResetPending = false ∧ s.ju.openList = [] ∧ s.ju.awaited = none
       ∧ ∃ t, exec (.beacon (beaconFrame 1 255 standsAt1000)) s = .next t ∧ Conflict t 1000
         ∧ lowerNeighbour s.ownRank t.nt.view = some 1) := by
  refine ⟨by decide, by decide, ⟨_, rfl, rfl⟩, ⟨by decide, by decide⟩, quiet_wellFormed,
    ⟨_, rfl, .inl ⟨1, 1000, by decide, ⟨_, _, rfl, by decide, rfl, by decide⟩, by decide⟩⟩,
    ⟨by decide, by decide⟩, stands_wellFormed, by decide, rfl, rfl, rfl, rfl,
    _, rfl, .inl ⟨1, 1000, by decide, ⟨_, _, rfl, by decide, rfl, by decide⟩, by decide⟩, by decide⟩

/-- A READY entry; a passed PENDING lead at its release point; a COOLING joint with 2 and with 1 left. -/
theorem witness_JointUnitExpiry :
    (let s : State := { welds .stirring with ju := { openList := [⟨5, 1, .pending, 0, 1000⟩, ⟨6, 1, .ready, 65535, 0⟩], currentLead := some 5
                                                     awaited := some { awaited .cooling with remaining := 2 } } }
     Passed s ⟨5, 1, .pending, 0, 1000⟩ ∧ ⟨6, 1, .ready, 65535, 0⟩ ∈ s.ju.openList
       ∧ ∃ a, s.ju.awaited = some a ∧ a.state = .cooling ∧ 1 < a.remaining)
    ∧ (∃ a, (meets .cooling 0).ju.awaited = some a ∧ a.state = .cooling ∧ a.remaining ≤ 1)
    ∧ ¬ Passed (meets .cooling 0) ⟨7, 3, .pending, 0, 900⟩ ∧ idleAt.ju.awaited = none := by
  refine ⟨⟨⟨rfl, rfl, rfl, 1000, rfl, fun _ => Nat.le_refl _, fun h => by cases h⟩, by decide, _, rfl, by decide⟩,
    ⟨_, rfl, by decide⟩, ?_, rfl⟩
  rintro ⟨_, h, _⟩
  cases h

theorem witness_ClosedListPush :
    ([4, 9, 12] : List Nat).length ≤ 4 ∧ ([4, 9, 12] : List Nat).Nodup ∧ 9 ∈ [4, 9, 12] ∧ 20 ∉ [4, 12, 9]
    ∧ ([4, 12, 9] : List Nat).length < 4 ∧ 31 ∉ [4, 12, 9, 20] ∧ ([4, 12, 9, 20] : List Nat).length = 4 := by decide

/-! ### Witnesses: interval expiries -/

/-- A PAUSE with a count left. -/
def pauses (n : Nat) (chain : Bool) : State :=
  { runs .active pauseRecord with
    px := { state := .active, record := some { pauseRecord with chain := chain }, passed := true, pauseCount := n } }

/-- The count at its top, feedback one short of lost, the period one short of due; a PAUSE with 2 left. -/
theorem witness_IntervalExpiryCounts :
    (let s : State := { pauses 2 false with
        clock := 4294967295, dp := { age := 6 }, pli := { periodCount := 6 } }
     s.pli.changeNoted = false ∧ s.su.station = .running ∧ oneOn s.dp.age < 8 ∧ s.px.state ≠ .awaitHeadEnd
       ∧ s.px.state ≠ .halting ∧ s.px.state ≠ .fetching ∧ s.pli.holdOff = false ∧ s.pli.periodOverrun = false
       ∧ s.pli.periodCount + 1 ≠ s.constants.beaconPeriod ∧ s.px.state = .active
       ∧ s.px.record = some { pauseRecord with chain := false } ∧ 1 < s.px.pauseCount)
    ∧ (idleAt.px.state = .idle ∧ idleAt.pli.periodCount + 1 ≠ idleAt.constants.beaconPeriod) := by decide

/-- The period count at its period, a beacon pending that waits for the line. -/
theorem witness_IntervalExpiryCounts_waiting :
    let s : State := { idleAt with pli := { periodCount := 8, beacon := some (assembleBeacon idleAt) } }
    s.pli.changeNoted = false ∧ s.px.state = .idle ∧ s.pli.holdOff = false ∧ s.pli.periodOverrun = false
      ∧ s.pli.periodCount + 1 ≠ s.constants.beaconPeriod ∧ periodOn s = 8 := by decide

/-- Each thing due, every other block quiet: the end of a PAUSE, a fetch and a wait to end, feedback 7 expiries old, the period at
7 of 8 with a hold-off, and a hold-off alone. -/
theorem witness_IntervalExpiryCounts_due :
    (∀ s ∈ [pauses 1 false, fetches moveRecord, ending .awaitHeadEnd .complete .parked, ending .halting .halted .retracting],
      s.pli.changeNoted = false ∧ s.su.lineResetPending = false ∧ s.pli.holdOff = false ∧ s.pli.periodOverrun = false
        ∧ s.pli.periodCount + 1 ≠ s.constants.beaconPeriod ∧ oneOn s.dp.age < 8)
    ∧ ((pauses 1 false).px.record = some { pauseRecord with chain := false } ∧ (pauses 1 false).px.pauseCount ≤ 1)
    ∧ (∀ x ∈ [runs .waitSlot weldRecord, moves, welds .dwelling, ending .awaitHeadEnd .complete .retracting],
      let s : State := { x with dp := { x.dp with age := 7 } }
      s.su.station = .running ∧ s.dp.lostReported = false ∧ 8 ≤ oneOn s.dp.age
        ∧ s.pli.periodCount + 1 ≠ s.constants.beaconPeriod)
    ∧ (moves.px.record = some moveRecord ∧ moveRecord.kind ≠ some .pause)
    ∧ (let s : State := { moves with pli := { periodCount := 7, holdOff := true } }
     s.pli.changeNoted = false ∧ s.px.state = .active ∧ s.pli.periodCount + 1 = s.constants.beaconPeriod)
    ∧ (let s : State := { idleAt with pli := { periodOverrun := true, periodCount := 8 } }
     s.pli.periodOverrun = true ∧ s.px.state = .idle)
    ∧ (let s : State := { idleAt with pli := { periodCount := 6, holdOff := true } }
     s.pli.periodOverrun = false ∧ s.pli.periodCount + 1 ≠ s.constants.beaconPeriod) := by decide

theorem witness_PauseEndCompletes :
    ((pauses 1 false).px.state = .active ∧ (pauses 1 false).px.record = some { pauseRecord with chain := false }
      ∧ pauseRecord.kind = some .pause ∧ (pauses 1 false).su.lineResetPending = false ∧ (pauses 1 false).px.pauseCount ≤ 1)
    ∧ 1 < (pauses 2 false).px.pauseCount
    ∧ ((pauses 1 true).px.record = some { pauseRecord with chain := true } ∧ (pauses 1 true).px.index + 1 ≤ 511)
    ∧ 512 ≤ ({ (pauses 1 true).px with index := 511 } : PassExecutor).index + 1 := by decide

/-- Feedback 7 expiries old, in every state of a chain under way; the head at work and PARKED, the end normal and not; and one
expiry sooner. -/
theorem witness_FeedbackLostStops :
    (∀ x ∈ underWay, let s : State := { x with dp := { x.dp with age := 7 } }
      s.su.station = .running ∧ s.dp.lostReported = false ∧ 8 ≤ oneOn s.dp.age ∧ s.px.state ≠ .idle ∧ s.px.state ≠ .stopped
        ∧ s.su.lineResetPending = false)
    ∧ (underWay.map (fun s => s.px.state) = [.waitSlot, .fetching, .fetching, .active, .active, .active, .awaitHeadEnd,
      .awaitHeadEnd, .halting])
    ∧ (underWay.map (fun s => s.hs.state) = [.parked, .parked, .stirring, .parked, .stirring, .dwelling, .retracting, .retracting,
      .stirring])
    ∧ oneOn ({ moves with dp := { moves.dp with age := 6 } } : State).dp.age < 8 := by decide

/-- The period at 7 of 8, with and without an own beacon on the line; at 6; the hold-off with and without a change
waiting. -/
theorem witness_BeaconPeriodAndHoldOff :
    (let s : State := { idleAt with pli := { periodCount := 7, holdOff := true, changeWaiting := true } }
     s.pli.changeNoted = false ∧ s.pli.periodCount + 1 = s.constants.beaconPeriod ∧ s.pli.transmitting = none
       ∧ s.pli.holdOff = true ∧ s.pli.changeWaiting = true)
    ∧ (let s : State := { idleAt with pli := { periodOverrun := true, transmitting := some (.beacon aBeacon) } }
     s.pli.periodOverrun = true ∧ s.pli.transmitting = some (.beacon aBeacon))
    ∧ (let s : State := { idleAt with pli := { periodCount := 6, holdOff := true } }
     s.pli.periodOverrun = false ∧ s.pli.periodCount + 1 ≠ s.constants.beaconPeriod ∧ s.pli.changeWaiting = false)
    ∧ idleAt.pli.holdOff = false := by decide

/-! ### Witnesses: the Head Sequencer -/

/-- A head state with a phase count and a force age. -/
def headAt (h : HeadState) (phase age : Nat) : State :=
  { welds h with hs := { (welds h).hs with phase := phase, forceAge := age } }

/-- Force age 7 and 8 after the expiry, and 31; a pending retract with the carriage moving. -/
theorem witness_ForceStepTrims :
    ((headAt .stirring 9 6).hs.state = .stirring ∧ (headAt .stirring 9 6).hs.weld = some (weldOf false)
      ∧ (headAt .stirring 9 6).tg.p = some 1000 ∧ (headAt .stirring 9 6).hs.retractPending = false
      ∧ oneOn (headAt .stirring 9 6).hs.forceAge < 8)
    ∧ (8 ≤ oneOn (headAt .stirring 9 7).hs.forceAge ∧ oneOn (headAt .stirring 9 30).hs.forceAge < 32
      ∧ (headAt .stirring 9 7).pli.changeNoted = false) := by decide

theorem witness_HeadRamps :
    (idleAt.pli.changeNoted = false ∧ idleAt.hs.state = .parked)
    ∧ (oneOn (headAt .spinningUp 2498 9).hs.phase < (headAt .spinningUp 2498 9).constants.spinUpTimeout)
    ∧ (oneOn (headAt .dwelling 498 30).hs.phase < (weldOf false).dwell ∧ oneOn (headAt .dwelling 498 30).hs.forceAge < 32
      ∧ (headAt .dwelling 498 30).hs.weld = some (weldOf false))
    ∧ (oneOn (headAt .plunging 4998 30).hs.phase < (headAt .plunging 4998 30).constants.plungeTimeout
      ∧ oneOn (headAt .plunging 4998 30).hs.forceAge < 32 ∧ (headAt .plunging 4998 30).hs.weld = some (weldOf false))
    ∧ (oneOn (headAt .retracting 2498 9).hs.phase < (headAt .retracting 2498 9).constants.retractTimeout) := by decide

/-- R41, R90, R108, R115: after HOLD_EXPIRED a lost force of the same expiry is not found; lost feedback is, and replaces the
SHORT that waits. -/
theorem test_faults_after_holdExpired :
    let s := after .holdExpired { stirs 499 with dp := { clamp := true, age := 7, enable := true }, hs := (headAt .stirring 9 31).hs }
    s.px.decided = some ⟨.short, some .holdExpired⟩
      ∧ (after .headExpiryWork s).px.decided = some ⟨.short, some .holdExpired⟩
      ∧ (after .clampLineFalse s).px.decided = some ⟨.short, some .holdExpired⟩
      ∧ (after .feedbackLost s).px.decided = some ⟨.fault, some .feedbackLost⟩ := by decide

theorem witness_HeadFaultsRetract :
    ((headAt .spinningUp 2499 9).px.state = .active ∧ (headAt .spinningUp 2499 9).hs.state = .spinningUp
      ∧ (headAt .spinningUp 2499 9).constants.spinUpTimeout ≤ oneOn (headAt .spinningUp 2499 9).hs.phase)
    ∧ ((headAt .plunging 4999 9).px.state = .active ∧ (headAt .plunging 4999 9).hs.weld = some (weldOf false)
      ∧ (headAt .plunging 4999 9).constants.plungeTimeout ≤ oneOn (headAt .plunging 4999 9).hs.phase)
    ∧ (oneOn (headAt .spinningUp 2498 9).hs.phase < (headAt .spinningUp 2498 9).constants.spinUpTimeout)
    ∧ (oneOn (headAt .plunging 4998 9).hs.phase < (headAt .plunging 4998 9).constants.plungeTimeout)
    ∧ (32 ≤ oneOn (headAt .dwelling 9 31).hs.forceAge ∧ 0 < (headAt .dwelling 9 31).constants.retractTimeout
      ∧ (headAt .plunging 9 31).hs.weld = some (weldOf false))
    ∧ oneOn (headAt .stirring 9 30).hs.forceAge < 32 := by decide

theorem witness_DwellEndStirs :
    ((headAt .dwelling 499 30).hs.state = .dwelling ∧ (headAt .dwelling 499 30).hs.weld = some (weldOf false)
      ∧ (weldOf false).dwell ≤ oneOn (headAt .dwelling 499 30).hs.phase
      ∧ (headAt .dwelling 499 30).tg.target = some ⟨.weld, 5000, 100⟩ ∧ oneOn (headAt .dwelling 499 30).hs.forceAge < 32
      ∧ (headAt .dwelling 499 30).hs.retractPending = false)
    ∧ oneOn (headAt .dwelling 498 30).hs.phase < (weldOf false).dwell := by decide

/-- A retract of a chain that ends, its phase count at `n`. -/
def endsRetracting (k : EndKind) (n : Nat) : State :=
  let s := ending .awaitHeadEnd k .retracting
  { s with hs := { s.hs with phase := n } }

theorem witness_RetractTimeoutHalts :
    (let s := endsRetracting .complete 2499
     s.hs.state = .retracting ∧ s.constants.retractTimeout ≤ oneOn s.hs.phase ∧ s.su.lineResetPending = false
       ∧ s.px.state = .awaitHeadEnd ∧ s.px.decided = some ⟨.complete, none⟩ ∧ s.tg.p = some 1000)
    ∧ ((endsRetracting .halted 2499).px.decided = some ⟨.halted, none⟩)
    ∧ ((retracts 50).px.state = .idle ∧ (retracts 50).hs.state = .retracting)
    ∧ oneOn (endsRetracting .complete 2498).hs.phase < (endsRetracting .complete 2498).constants.retractTimeout := by
  decide

/-- A HALT waits in STIRRING for the carriage. -/
def pendsRetract (v age : Nat) : State :=
  { welds .stirring with
    tg := { (welds .stirring).tg with v := v, target := none, phaseOpen := false }
    hs := { (welds .stirring).hs with retractPending := true, forceAge := age }
    px := { (welds .stirring).px with state := .halting, decided := some ⟨.halted, none⟩ } }

theorem witness_PendingRetractStarts :
    ((pendsRetract 0 30).hs.state = .stirring ∧ (pendsRetract 0 30).hs.retractPending = true ∧ (pendsRetract 0 30).tg.v = 0
      ∧ (pendsRetract 0 30).hs.weld = some (weldOf false) ∧ oneOn (pendsRetract 0 30).hs.forceAge < 32
      ∧ 8 ≤ oneOn (pendsRetract 0 30).hs.forceAge)
    ∧ (oneOn (pendsRetract 0 6).hs.forceAge < 8 ∧ (pendsRetract 0 6).tg.p = some 1000)
    ∧ 0 < (pendsRetract 1 0).tg.v := by decide

/-- No fault: a position at p. -/
theorem good_faultFree {s : State} (hp : s.tg.p = some 1000) (hf : s.constants.forceCeiling = 3000) : FaultFree goodFeedback s :=
  ⟨rfl, by decide, fun p h => by rw [hp] at h; cases h; exact Nat.zero_le _, fun _ _ => by rw [hf]; decide⟩

/-- A message that ends no phase. -/
theorem completes_nothing {m : Feedback} {s : State} (h : s.hs.state ≠ .spinningUp) (h1 : s.hs.state ≠ .plunging)
    (h2 : m.zClear = false) : CompletesNothing m s :=
  ⟨fun e => absurd e h, fun e => absurd e h1, fun _ => .inr h2⟩

/-- The measured Z 20 short of the depth, and 21. -/
theorem witness_HeadCompletions :
    (let s := takes goodFeedback (welds .spinningUp)
     s.dp.slot = some goodFeedback ∧ s.dp.enable = true ∧ s.tg.p ≠ none ∧ FaultFree goodFeedback s ∧ s.hs.state = .spinningUp
       ∧ goodFeedback.atSpeed = true)
    ∧ (let m := { goodFeedback with z := 5980 }
     let s := takes m (welds .plunging)
     s.dp.slot = some m ∧ s.dp.enable = true ∧ FaultFree m s ∧ s.hs.state = .plunging ∧ s.hs.weld = some (weldOf false)
       ∧ s.hs.zCommand = (weldOf false).depth ∧ (weldOf false).depth ≤ m.z + 20 ∧ 0 < (weldOf false).dwell)
    ∧ ({ weldOf false with dwell := 0 } : WeldParams).dwell = 0
    ∧ (let s := takes goodFeedback { ending .awaitHeadEnd .complete .retracting with tg := { p := some 1000, v := 4 } }
     s.dp.slot = some goodFeedback ∧ s.dp.enable = true ∧ FaultFree goodFeedback s ∧ s.hs.state = .retracting ∧ s.hs.zCommand = 0
       ∧ goodFeedback.zClear = true ∧ 0 < s.tg.v ∧ s.px.state = .awaitHeadEnd)
    ∧ (5979 + 20 < (weldOf false).depth ∧ (retracts 1).hs.zCommand ≠ 0) := by
  refine ⟨⟨rfl, rfl, by decide, good_faultFree rfl rfl, rfl, rfl⟩, ?_, rfl,
    ⟨rfl, rfl, good_faultFree rfl rfl, rfl, rfl, rfl, by decide, rfl⟩, by decide⟩
  exact ⟨rfl, rfl, ⟨rfl, by decide, fun p h => by cases h; decide, fun _ _ => by decide⟩, rfl, rfl, rfl, by decide, by decide⟩

theorem witness_HeadEndCloses :
    (let s := takes goodFeedback (ending .awaitHeadEnd .complete .retracting)
     s.dp.slot = some goodFeedback ∧ s.dp.enable = true ∧ s.tg.p = some 1000 ∧ FaultFree goodFeedback s ∧ s.hs.state = .retracting
       ∧ s.hs.zCommand = 0 ∧ goodFeedback.zClear = true ∧ s.tg.v = 0 ∧ s.su.lineResetPending = false
       ∧ s.px.state = .awaitHeadEnd ∧ s.px.decided = some ⟨.complete, none⟩ ∧ s.px.record = some weldRecord
       ∧ s.px.passed = true ∧ weldRecord.kind = some .weld ∧ weldRecord.chain = false ∧ weldRecord.cont = false)
    ∧ ((ending .halting .halted .retracting).px.decided = some ⟨.halted, none⟩)
    ∧ (let s := takes goodFeedback { retracts 0 with px := { state := .stopped }, su := { station := .stopped } }
     s.px.state = .stopped ∧ s.tg.p = some 1000 ∧ FaultFree goodFeedback s ∧ s.tg.v = 0)
    ∧ (retracts 0).px.state = .idle :=
  ⟨⟨rfl, rfl, rfl, good_faultFree rfl rfl, rfl, rfl, rfl, rfl, rfl, rfl, rfl, rfl, rfl, by decide, rfl, rfl⟩, rfl,
    ⟨rfl, rfl, good_faultFree rfl rfl, rfl⟩, rfl⟩

/-- A message with a fault code whose Z-clear ends a chain: COMPLETE in AWAIT_HEAD_END, HALTED in HALTING. -/
theorem witness_HeadEndCloses_reported :
    (let m := { goodFeedback with faultCode := 1 }
     let s := takes m (ending .awaitHeadEnd .complete .retracting)
     s.dp.slot = some m ∧ s.dp.enable = true ∧ s.tg.p = some 1000 ∧ FollowAccepted m s ∧ ¬ DriveAccepted m s
       ∧ s.su.station = .running ∧ s.hs.state = .retracting ∧ s.hs.zCommand = 0 ∧ m.zClear = true ∧ s.tg.v = 0
       ∧ s.su.lineResetPending = false ∧ s.px.state = .awaitHeadEnd ∧ s.px.decided = some ⟨.complete, none⟩
       ∧ s.px.record = some weldRecord ∧ s.px.passed = true)
    ∧ (ending .halting .halted .retracting).px.state = .halting
    ∧ (ending .halting .halted .retracting).px.decided = some ⟨.halted, none⟩ :=
  ⟨⟨rfl, rfl, rfl, fun _ _ p h => by cases h; decide, fun h => absurd (h rfl).1 (by decide), rfl, rfl, rfl, rfl, rfl, rfl, rfl, rfl,
    rfl, rfl⟩, rfl, rfl⟩

/-! ### Witnesses: the Drive Port and the stop lines -/

/-- A message at the top of its fields; one with every unused bit set; one byte short; and a check that differs. -/
theorem witness_DriveLinkMessages :
    (let m : Feedback := { goodFeedback with position := 4294967295, z := 65535, force := 4095, faultCode := 255 }
     m.position < 4294967296 ∧ m.z < 65536 ∧ m.force < 4096 ∧ m.faultCode < 256)
    ∧ (let bs := withCheck (bytesOfNat 6 0 ++ bytesOfNat 1 0xF8 ++ bytesOfNat 2 0xF000 ++ bytesOfNat 1 0)
       bs.length = 12 ∧ natOfBytes (bs.drop 10) = checkOf (bs.take 10))
    ∧ (List.replicate 11 (0 : Byte)).length ≠ 12
    ∧ natOfBytes ((List.replicate 12 (0 : Byte)).drop 10) ≠ checkOf ((List.replicate 12 (0 : Byte)).take 10) := by decide

/-- A message with every kind of fault, and no phase ended. -/
def badFeedback : Feedback :=
  { goodFeedback with position := 33554432, faultCode := 1, force := 3000, zClear := false }

/-- FOLLOWING and DRIVE_REPORTED reported in the chain already. -/
def reported (s : State) : State :=
  { s with tg := { s.tg with followReported := true }, dp := { s.dp with driveReported := true } }
/-- In RUNNING: a message past the following limit with a fault code, and one out of range, both reported in the chain already,
with the enable on; and one out of range with it off. -/
theorem witness_FeedbackTakenHolds_reported :
    (∀ m ∈ [{ goodFeedback with position := 3001, faultCode := 1 }, { goodFeedback with position := 33554432 }],
      let s := takes m (reported (welds .stirring))
      s.dp.slot = some m ∧ s.su.station = .running ∧ s.dp.enable = true ∧ s.tg.p = some 1000 ∧ s.pli.changeNoted = false
        ∧ s.hs.state = .stirring ∧ s.tg.followReported = true ∧ s.dp.driveReported = true)
    ∧ (let m := { goodFeedback with position := 33554432 }
       let s := takes m { runs .waitSlot weldRecord with dp := { driveReported := true } }
       s.dp.slot = some m ∧ s.su.station = .running ∧ s.dp.enable = false ∧ s.dp.driveReported = true) := by decide

/-- The enable off outside RUNNING with a position out of range and a fault code, and in RUNNING with neither; the enable on
outside RUNNING with both, and in RUNNING with a good message; nothing waiting. -/
theorem witness_FeedbackTakenHolds :
    (let s := takes badFeedback idleAt
     s.dp.slot = some badFeedback ∧ s.pli.changeNoted = false ∧ s.hs.state = .parked ∧ s.dp.enable = false
       ∧ s.su.station ≠ .running ∧ CompletesNothing badFeedback s ∧ ForceAccepted badFeedback s)
    ∧ (let s := takes goodFeedback { runs .waitSlot weldRecord with dp := { estop := true } }
     s.dp.slot = some goodFeedback ∧ s.dp.enable = false ∧ s.su.station = .running ∧ goodFeedback.position ≤ 33554431
       ∧ goodFeedback.faultCode = 0)
    ∧ (let s := takes badFeedback (retracts 50)
     s.dp.slot = some badFeedback ∧ s.dp.enable = true ∧ s.tg.p ≠ none ∧ s.su.station ≠ .running
       ∧ CompletesNothing badFeedback s ∧ ForceAccepted badFeedback s)
    ∧ (let s := takes goodFeedback (welds .stirring)
     s.dp.slot = some goodFeedback ∧ s.pli.changeNoted = false ∧ s.hs.state = .stirring ∧ s.dp.enable = true
       ∧ s.tg.p ≠ none ∧ FaultFree goodFeedback s)
    ∧ (idleAt.dp.slot = none ∧ idleAt.pli.changeNoted = false) :=
  ⟨⟨rfl, rfl, rfl, rfl, by decide, completes_nothing (by decide) (by decide) rfl, fun _ _ => by decide⟩, by decide,
    ⟨rfl, rfl, by decide, by decide, completes_nothing (by decide) (by decide) rfl, fun _ _ => by decide⟩,
    ⟨rfl, rfl, rfl, rfl, by decide, good_faultFree rfl rfl⟩, by decide⟩

/-- A message 2001 µm off p, its FOLLOWING reported already, with a fault code. -/
theorem witness_FeedbackFaultsStop_reported :
    (let m := { goodFeedback with position := 3001, faultCode := 1 }
     let s := takes m { welds .stirring with tg := { (welds .stirring).tg with followReported := true } }
     s.dp.driveReported = false ∧ m.faultCode ≠ 0 ∧ FollowAccepted m s ∧ ForceAccepted m s) :=
  ⟨rfl, by decide, fun _ h => absurd h (by decide), fun _ _ => by decide⟩

/-- In every state of a chain under way: 2001 µm off p; force 3001, where it is compared; a fault code; a position one too high;
and the first two together. -/
theorem witness_FeedbackFaultsStop :
    (∀ x ∈ underWay, let s := takes { goodFeedback with zClear := false } x
      s.dp.slot = some { goodFeedback with zClear := false } ∧ s.su.station = .running ∧ s.px.state ≠ .idle
        ∧ s.px.state ≠ .stopped ∧ s.dp.enable = true ∧ s.tg.p = some 1000 ∧ s.su.lineResetPending = false
        ∧ s.hs.state ≠ .spinningUp ∧ s.hs.state ≠ .plunging)
    ∧ (let s := takes { goodFeedback with position := 3001, zClear := false } (welds .stirring)
     s.tg.followReported = false ∧ s.constants.followLimit < distance 1000 3001 ∧ 3001 ≤ 33554431
       ∧ ForceAccepted { goodFeedback with position := 3001, zClear := false } s)
    ∧ (let s := takes { goodFeedback with position := 3000, force := 3001 } (welds .stirring)
     distance 1000 3000 ≤ s.constants.followLimit ∧ ¬ ForceAccepted { goodFeedback with position := 3000, force := 3001 } s)
    ∧ (let s := takes { goodFeedback with position := 3001, force := 3001 } (welds .stirring)
     s.px.state = .active ∧ s.constants.followLimit < distance 1000 3001
       ∧ ¬ ForceAccepted { goodFeedback with position := 3001, force := 3001 } s)
    ∧ (let s := takes { goodFeedback with faultCode := 1 } (welds .stirring)
     s.dp.driveReported = false ∧ ({ goodFeedback with faultCode := 1 } : Feedback).faultCode ≠ 0)
    ∧ 33554431 < ({ goodFeedback with position := 33554432 } : Feedback).position :=
  ⟨by decide, ⟨rfl, by decide, by decide, fun _ _ => by decide⟩,
    ⟨by decide, fun h => absurd (h (by decide) rfl) (by decide)⟩,
    ⟨rfl, by decide, fun h => absurd (h (by decide) rfl) (by decide)⟩, by decide, by decide⟩

theorem witness_LevelInputs :
    ((welds .stirring).dp.estop = false ∧ (welds .stirring).su.lineResetPending = false ∧ (welds .stirring).px.state = .active
      ∧ (welds .stirring).hs.state ≠ .parked ∧ (welds .stirring).hs.state ≠ .halted)
    ∧ (idleAt.dp.estop = false ∧ idleAt.hs.state = .parked ∧ idleAt.px.state = .idle)
    ∧ (let s := ending .awaitHeadEnd .halted .retracting
     s.px.state = .awaitHeadEnd ∧ s.px.decided = some ⟨.halted, none⟩ ∧ s.tg.p = some 1000 ∧ s.dp.estop = false)
    ∧ ((ending .awaitHeadEnd .complete .retracting).px.decided = some ⟨.complete, none⟩)
    ∧ ({ idleAt with dp := { estop := true } } : State).dp.estop = true
    ∧ ((welds .stirring).dp.clamp = true ∧ (welds .stirring).hs.state.working = true)
    ∧ (idleAt.pli.changeNoted = false ∧ idleAt.hs.state = .parked ∧ (retracts 50).hs.state = .retracting)
    ∧ (let s : State := { welds .stirring with dp := { clamp := false } }
       s.pli.changeNoted = false ∧ s.dp.clamp = false ∧ s.hs.state = .stirring) := by decide

/-! ### Witnesses: the Peer Line -/

/-- The queue of a station of rank 0. -/
def queues (b : Option OwnBeacon) (l : List Reply) (x : Option OwnFrame) : State :=
  { idleAt with pli := { beacon := b, replies := l, transmitting := x } }

/-- A rival's field equal to the own and one below it, for a beacon and for a reply. -/
theorem witness_FrameStartAndLeave :
    (let s := queues (some aBeacon) [.load 8 []] none
     s.pli.transmitting = none ∧ s.pli.beacon = some aBeacon ∧ (∀ x ∈ [(128 : Byte)], 128 + s.ownRank.val ≤ x.toNat)
       ∧ (127 : Byte).toNat < 128 + s.ownRank.val)
    ∧ (let s := queues none [.load 8 []] none
     s.pli.transmitting = none ∧ s.pli.beacon = none ∧ s.pli.replies = .load 8 [] :: []
       ∧ (∀ x ∈ [(192 : Byte)], 192 + s.ownRank.val ≤ x.toNat) ∧ (191 : Byte).toNat < 192 + s.ownRank.val)
    ∧ (idleAt.pli.transmitting = none ∧ idleAt.pli.beacon = none ∧ idleAt.pli.replies = [])
    ∧ (queues none [] (some (.beacon aBeacon))).pli.transmitting = some (.beacon aBeacon)
    ∧ (queues none [] (some (.reply (.load 8 [])))).pli.transmitting = some (.reply (.load 8 [])) := by decide

/-- Five bytes; a check that differs; and a frame that each filter discards. -/
theorem witness_FiltersDiscard :
    ([8, 255, 1, 0, 0] : List Byte).length < 6
    ∧ natOfBytes (([0, 0] : List Byte).drop 0) ≠ checkOf [8, 255, 1, 0]
    ∧ Discarded { cls := 0, sender := 16, dest := 255, kindCode := 1, payload := [] } idleAt
    ∧ Discarded { cls := 0, sender := 8, dest := 255, kindCode := 7, payload := [] } idleAt
    ∧ Discarded { cls := 3, sender := 8, dest := 0, kindCode := 49, payload := [] } idleAt
    ∧ Discarded { cls := 2, sender := 8, dest := 255, kindCode := 16, payload := [] } idleAt
    ∧ Discarded { cls := 0, sender := 7, dest := 255, kindCode := 1, payload := [] } idleAt
    ∧ Discarded { cls := 0, sender := 8, dest := 1, kindCode := 1, payload := [] } idleAt
    ∧ Discarded { cls := 3, sender := 8, dest := 255, kindCode := 34, payload := [1, 0] } idleAt
    ∧ Discarded { cls := 0, sender := 8, dest := 255, kindCode := 1, payload := [0] } idleAt
    ∧ Discarded { cls := 3, sender := 8, dest := 0, kindCode := 34, payload := [1, 0] }
        (queues none [.load 8 [], .load 8 [], .load 8 []] none)
    ∧ (∃ f, parseFrame (cellFrame .halt 16 255 []) = some f ∧ Discarded f idleAt)
    ∧ ({ idleAt with pli := { reception := .notTaken } } : State).pli.reception = .notTaken :=
  ⟨by decide, by decide, .sender (by decide), .unknown (fun k => by cases k <;> decide), .reply (by decide),
    .beaconSender rfl (by decide), .cellSender .halt rfl rfl (by decide), .destination (by decide) (by decide) (by decide),
    .toAll .statusRequest rfl rfl rfl, .length .halt 0 rfl rfl (by decide), .noRoom .statusRequest rfl rfl (by decide),
    ⟨{ cls := 0, sender := 16, dest := 255, kindCode := 1, payload := [] }, by decide, .sender (by decide)⟩, rfl⟩

/-- 49, 50, 120 and 121. -/
theorem witness_OverrideClamped : Taken .override 8 255 [49] idleAt ∧ Taken .override 15 0 [50] idleAt
    ∧ Taken .override 8 255 [120] idleAt ∧ Taken .override 8 255 [121] idleAt :=
  ⟨taken_fixed (n := 1) (by decide), taken_fixed (n := 1) (by decide), taken_fixed (n := 1) (by decide),
    taken_fixed (n := 1) (by decide)⟩

/-! ### Witnesses: loads and status -/

/-- A PASS LOAD of one record at `i`. -/
def oneRecord (i : Nat) : List Byte := bytesOfNat 2 i ++ [1] ++ recordBytes weldRecord

/-- Index 511 is the last, 512 past it; RUNNING; a count of 0 and of 5. -/
theorem witness_PassLoadWrites :
    Taken .passLoad 8 0 (oneRecord 511) idleAt ∧ idleAt.pli.changeNoted = false ∧ Memory.wf idleAt.pm = true
    ∧ (fieldAt (oneRecord 511) 2 1 = 1 ∧ (oneRecord 511).length = 3 + 32 * 1
      ∧ fieldAt (oneRecord 511) 0 2 + fieldAt (oneRecord 511) 2 1 ≤ 512 ∧ 512 < fieldAt (oneRecord 512) 0 2 + fieldAt (oneRecord 512) 2 1)
    ∧ Taken .passLoad 8 0 (oneRecord 0) moves ∧ moves.su.station = .running
    ∧ (Taken .passLoad 8 0 [0, 0, 0] idleAt ∧ fieldAt [0, 0, 0] 2 1 = 0)
    ∧ (Taken .passLoad 8 0 [0, 0, 5] idleAt ∧ 4 < fieldAt [0, 0, 5] 2 1) :=
  ⟨taken_free (by decide), rfl, by decide, by decide, taken_free (by decide), rfl,
    ⟨taken_free (by decide), by decide⟩, taken_free (by decide), by decide⟩

/-- Window 7 in range and one out of it; window 8; kind 3; one byte short; RUNNING. -/
theorem witness_RegionLoadReplaces :
    (Taken .regionLoad 8 0 (regionPayload 7 { base := 33554431, length := 33554431, offset := -512 }) idleAt
      ∧ idleAt.pli.changeNoted = false ∧ idleAt.su.station ≠ .running
      ∧ ({ base := 33554431, length := 33554431, offset := -512 } : RegionWindow).inRange)
    ∧ (Taken .regionLoad 8 0 (regionPayload 7 { derate := 17 }) idleAt ∧ ¬ ({ derate := 17 } : RegionWindow).inRange)
    ∧ (Taken .regionLoad 8 0 (regionPayload 8 {}) idleAt ∧ 7 < fieldAt (regionPayload 8 {}) 0 1)
    ∧ (Taken .regionLoad 8 0 ((regionPayload 0 {}).set 10 3) idleAt ∧ 2 < fieldAt ((regionPayload 0 {}).set 10 3) 10 1)
    ∧ (Taken .regionLoad 8 0 ((regionPayload 0 {}).dropLast) idleAt ∧ (regionPayload 0 {}).dropLast.length ≠ 14)
    ∧ Taken .regionLoad 8 0 (regionPayload 0 {}) moves ∧ moves.su.station = .running := by
  unfold RegionWindow.inRange
  exact ⟨⟨taken_free (by decide), rfl, by decide, by decide⟩, ⟨taken_free (by decide), by decide⟩,
    ⟨taken_free (by decide), by decide⟩, ⟨taken_free (by decide), by decide⟩,
    ⟨taken_free (by decide), by decide⟩, taken_free (by decide), rfl⟩

/-- Each section, and 0 and 5 that are none. -/
theorem witness_StatusRequestsAnswered :
    Taken .statusRequest 8 0 [1, 0] idleAt ∧ Taken .statusRequest 8 0 [2, 1] idleAt ∧ Taken .statusRequest 8 0 [3, 1] idleAt
    ∧ Taken .statusRequest 8 0 [4, 0] idleAt ∧ Taken .statusRequest 8 0 [0, 0] idleAt ∧ Taken .statusRequest 15 0 [5, 0] idleAt
    ∧ idleAt.pli.changeNoted = false :=
  ⟨taken_fixed (n := 2) (by decide), taken_fixed (n := 2) (by decide), taken_fixed (n := 2) (by decide),
    taken_fixed (n := 2) (by decide), taken_fixed (n := 2) (by decide), taken_fixed (n := 2) (by decide), rfl⟩

/-! ### Witnesses: station states -/

/-- A station whose LINE RESET waits for the halt of a MOVE. -/
def resetWaits : State :=
  { ending .halting .halted .parked with su := { station := .running, lineResetPending := true } }

/-- The chain under way in every way when LINE RESET comes; and one that has come. -/
theorem witness_LineResetTakesEffect_running :
    (∀ s ∈ underWay, s.su.station = .running ∧ s.su.lineResetPending = false ∧ s.pli.changeNoted = false
      ∧ s.pli.reception ≠ .notTaken ∧ s.ownRank = 0)
    ∧ Taken .lineReset 8 255 [] (welds .stirring)
    ∧ (let s : State := { ending .awaitHeadEnd .fault .parked with su := { station := .running, lineResetPending := true } }
     s.px.state = .awaitHeadEnd ∧ s.px.decided = some ⟨.fault, none⟩ ∧ ¬ NormalEnd ⟨.fault, none⟩ ∧ s.tg.v = 0
       ∧ s.hs.state = .parked) := by
  refine ⟨by decide, taken_fixed (n := 0) (by decide), rfl, rfl, by unfold NormalEnd; decide, rfl, rfl⟩

/-- R177, R181, R182: a message whose Z-clear ends a chain under a pending LINE RESET, with a fault code and a position out of
range: the reset is the last of it, by either row. -/
theorem test_reset_clears_report :
    ∀ c ∈ [Instr.retractComplete, .feedbackTaken],
      let t := after c (takes { badFeedback with zClear := true }
        { ending .halting .halted .retracting with su := { station := .running, lineResetPending := true } })
      t.su.station = .unconfigured ∧ t.dp.driveReported = false ∧ t.su.flags = 0 ∧ t.hs.state = .parked := by decide

/-- A pending LINE RESET and a message that ends the retract, FOLLOWING and a drive fault with it. -/
theorem witness_LineResetTakesEffect_faults :
    let m := { goodFeedback with position := 3001, faultCode := 1 }
    let s := takes m { ending .halting .halted .retracting with su := { station := .running, lineResetPending := true } }
    s.su.lineResetPending = true ∧ s.hs.state = .retracting ∧ s.su.station = .running ∧ s.px.state = .halting
      ∧ s.px.decided = some ⟨.halted, none⟩ ∧ s.dp.slot = some m ∧ s.dp.enable = true ∧ s.tg.p = some 1000
      ∧ s.hs.zCommand = 0 ∧ m.zClear = true ∧ s.tg.v = 0 ∧ s.constants.followLimit < distance 1000 3001 := by decide

/-- A LINE RESET held during a retract from HALTED, and one pending while a halt waits for the head: the retract completes, times
out at 2500, or the emergency-stop line is asserted. -/
theorem witness_LineResetTakesEffect_retract :
    (let s := takes goodFeedback { retracts 0 with
        px := { state := .stopped }, su := { station := .stopped, lineResetPending := true } }
     s.su.lineResetPending = true ∧ s.hs.state = .retracting ∧ s.su.station ≠ .running ∧ s.px.state = .stopped
       ∧ s.dp.slot = some goodFeedback ∧ s.dp.enable = true ∧ s.tg.p ≠ none ∧ s.hs.zCommand = 0
       ∧ goodFeedback.zClear = true ∧ s.tg.v = 0 ∧ s.dp.estop = false)
    ∧ (let s : State := { endsRetracting .halted 2499 with su := { station := .running, lineResetPending := true } }
     s.su.lineResetPending = true ∧ s.hs.state = .retracting ∧ s.su.station = .running ∧ s.px.state = .awaitHeadEnd
       ∧ s.px.decided = some ⟨.halted, none⟩ ∧ ¬ NormalEnd ⟨.halted, none⟩
       ∧ s.constants.retractTimeout ≤ oneOn s.hs.phase ∧ s.dp.estop = false) := by
  refine ⟨⟨rfl, rfl, by decide, rfl, rfl, rfl, by decide, rfl, rfl, rfl, rfl⟩,
    rfl, rfl, rfl, rfl, rfl, by unfold NormalEnd; decide, by decide, rfl⟩

theorem witness_LineResetTakesEffect :
    (idleAt.su.station ≠ .running ∧ idleAt.hs.state ≠ .retracting ∧ Taken .lineReset 8 255 [] idleAt)
    ∧ (Taken .lineReset 8 255 [] (retracts 50) ∧ (retracts 50).pli.changeNoted = false ∧ (retracts 50).su.station ≠ .running
      ∧ (retracts 50).hs.state = .retracting)
    ∧ (Taken .lineReset 8 255 [] moves ∧ moves.su.station = .running ∧ moves.px.state = .active ∧ moves.hs.state = .parked
      ∧ 0 < moves.tg.v ∧ moves.su.lineResetPending = false)
    ∧ (Taken .lineReset 8 255 [] resetWaits ∧ resetWaits.su.station = .running ∧ resetWaits.pli.changeNoted = false
      ∧ resetWaits.su.lineResetPending = true ∧ resetWaits.px.state = .halting
      ∧ resetWaits.px.decided = some ⟨.halted, none⟩ ∧ resetWaits.tg.v = 0 ∧ resetWaits.hs.state = .parked) :=
  ⟨⟨by decide, by decide, taken_fixed (n := 0) (by decide)⟩,
    ⟨taken_fixed (n := 0) (by decide), rfl, by decide, rfl⟩,
    ⟨taken_fixed (n := 0) (by decide), rfl, rfl, rfl, by decide, rfl⟩,
    taken_fixed (n := 0) (by decide), rfl, rfl, rfl, rfl, rfl, rfl, rfl⟩

/-- In UNCONFIGURED, with the limits in order and equal; and not in UNCONFIGURED. -/
theorem witness_SetupConfigures :
    (({} : Constants).carried ∧ Taken .setup 8 255 (setupPayload 0x0F {}) State.reset ∧ State.reset.su.station = .unconfigured
      ∧ min ({} : Constants).railMin 33554431 < min ({} : Constants).railMax 33554431)
    ∧ (let c : Constants := { railMin := 5, railMax := 5 }
     c.carried ∧ Taken .setup 8 255 (setupPayload 0 c) State.reset ∧ min c.railMax 33554431 ≤ min c.railMin 33554431)
    ∧ (Taken .setup 8 255 (setupPayload 0 {}) idleAt ∧ idleAt.su.station ≠ .unconfigured) := by
  unfold Constants.carried
  exact ⟨⟨by decide, taken_fixed (n := 38) (by decide), rfl, by decide⟩,
    ⟨by decide, taken_fixed (n := 38) (by decide), by decide⟩,
    taken_fixed (n := 38) (by decide), by decide⟩

theorem witness_JobClearByState :
    (Taken .jobClear 8 255 [] moves ∧ moves.su.station = .running)
    ∧ (let s : State := { idleAt with hs := { state := .halted }, dp := { clamp := true } }
     Taken .jobClear 8 255 [] s ∧ s.su.station ≠ .running ∧ s.dp.estop = false ∧ s.hs.state.working = false
       ∧ s.su.station ≠ .unconfigured ∧ s.hs.state = .halted)
    ∧ (let s : State := { idleAt with px := { state := .stopped }, su := { station := .stopped } }
     Taken .jobClear 8 255 [] s ∧ s.su.station = .stopped ∧ s.hs.state = .parked ∧ s.dp.estop = false)
    ∧ (Taken .jobClear 8 255 [] State.reset ∧ State.reset.su.station = .unconfigured)
    ∧ (let s : State := { retracts 50 with px := { state := .stopped }, su := { station := .stopped } }
     Taken .jobClear 8 255 [] s ∧ s.su.station = .stopped ∧ s.hs.state = .retracting)
    ∧ (let s : State := { idleAt with dp := { estop := true } }
     Taken .jobClear 8 255 [] s ∧ s.dp.estop = true) :=
  ⟨⟨taken_fixed (n := 0) (by decide), rfl⟩,
    ⟨taken_fixed (n := 0) (by decide), by decide, rfl, rfl, by decide, rfl⟩,
    ⟨taken_fixed (n := 0) (by decide), rfl, rfl, rfl⟩, ⟨taken_fixed (n := 0) (by decide), rfl⟩,
    ⟨taken_fixed (n := 0) (by decide), rfl, rfl⟩, taken_fixed (n := 0) (by decide), rfl⟩

/-! ### Witnesses: the Pass Executor -/

/-- A JOB START for the ranks of `mask`, rank 0 at index `i`. -/
def startAt (mask i : Nat) : List Byte := bytesOfNat 1 mask ++ bytesOfNat 2 i ++ List.replicate 14 0

/-- Not named; index 511 accepted, 512 refused; a completion pending; a station not IDLE. -/
theorem witness_JobStartJudged :
    (Taken .jobStart 8 255 (startAt 2 3) idleAt ∧ bitOf (fieldAt (startAt 2 3) 0 1) idleAt.ownRank.val = false
      ∧ idleAt.pli.changeNoted = false)
    ∧ (let s := idleAt
     Taken .jobStart 8 255 (startAt 1 511) s ∧ bitOf (fieldAt (startAt 1 511) 0 1) s.ownRank.val = true
       ∧ fieldAt (startAt 1 511) (1 + 2 * s.ownRank.val) 2 = 511 ∧ s.su.station = .idle ∧ s.px.completionPending = false
       ∧ s.hs.state = .parked)
    ∧ (Taken .jobStart 8 255 (startAt 1 512) idleAt ∧ fieldAt (startAt 1 512) (1 + 2 * idleAt.ownRank.val) 2 = 512)
    ∧ (Taken .jobStart 8 255 (startAt 1 0) { idleAt with px := { completionPending := true } })
    ∧ (Taken .jobStart 8 255 (startAt 1 0) moves ∧ moves.su.station ≠ .idle) :=
  ⟨⟨taken_fixed (n := 17) (by decide), by decide, rfl⟩,
    ⟨taken_fixed (n := 17) (by decide), by decide, by decide, rfl, rfl, rfl⟩,
    ⟨taken_fixed (n := 17) (by decide), by decide⟩, taken_fixed (n := 17) (by decide),
    taken_fixed (n := 17) (by decide), by decide⟩

/-- The checks of R77 and R78 with p at `p`, but for the opening check, whose answer is `o`. -/
def failsAt (s : State) (p : Nat) (o : Bool) (k : RecordKind) (r : PassRecord) : Detail → Bool
  | .continueKind => decide (s.px.role = .continuation ∧ k ≠ .weld)
  | .fieldRange => !fieldsOk s.px.role k r
  | .startMismatch => decide (s.px.role = .fresh ∧ (k = .weld ∨ k = .dry) ∧ r.start ≠ p)
  | .zeroLength => decide (s.px.role = .fresh ∧ (k = .weld ∨ k = .dry) ∧ r.endPos = r.start
      ∨ s.px.role = .continuation ∧ k = .weld ∧ r.endPos = p)
  | .direction => decide (s.px.role = .continuation ∧ k = .weld
      ∧ ¬ ((s.tg.dir = .up → p < r.endPos) ∧ (s.tg.dir = .down → r.endPos < p)))
  | .railRange => decide ((k = .weld ∨ k = .dry ∨ k = .move) ∧ (r.endPos < s.constants.railMin ∨ s.constants.railMax < r.endPos))
  | .pathOpen => o
  | .jointGeometry =>
    let d := weldHeading s r
    let a := weldFrom s r p
    decide (k = .weld ∧ (r.leadId ≠ 0 ∧ (s.px.role = .continuation ∨ distance r.endPos r.start < r.release)
      ∨ r.trailId ≠ 0 ∧ ¬ (((d = .up → a < r.entryX) ∧ (d = .down → r.entryX < a))
          ∧ (d = .up → r.entryX < r.endPos) ∧ (d = .down → r.endPos < r.entryX))
      ∨ r.trailId ≠ 0 ∧ d = .up ∧ r.entryX < a + r.standoff ∨ r.trailId ≠ 0 ∧ d = .down ∧ a < r.entryX + r.standoff))
  | .jointPartner => decide (k = .weld ∧ (r.leadId ≠ 0 ∧ rankBehind s (weldHeading s r) = none
      ∨ r.trailId ≠ 0 ∧ rankAhead s (weldHeading s r) = none))
  | .jointDuplicate => decide (k = .weld ∧ r.leadId ≠ 0 ∧ r.leadId ∈ s.ju.openList.map (fun e => e.id))
  | .jointReused => decide (k = .weld) &&
      ((decide (r.leadId ≠ 0) && (rankBehind s (weldHeading s r)).any (fun q => decide (r.leadId ∈ filedClosed s q)))
        || decide (r.trailId ≠ 0 ∧ r.trailId ∈ s.ju.closedList))
  | _ => false

theorem failsAt_iff {s : State} {p : Nat} {o : Bool} {k : RecordKind} {r : PassRecord} (hp : s.tg.p = some p)
    (ho : o = true ↔ Fails s k r .pathOpen) (d : Detail) : failsAt s p o k r d = true ↔ Fails s k r d := by
  cases d
  case pathOpen => exact ho
  case fieldRange => simp only [failsAt, Fails, Bool.not_eq_true', ← fieldsOk_iff, Bool.not_eq_true]
  case jointReused => simp [failsAt, Fails, Option.any_eq_true]
  all_goals simp only [failsAt, Fails, Ahead, hp, Option.some.injEq, exists_eq_left', decide_eq_true_eq, Bool.false_eq_true,
    reduceCtorEq, false_and, false_or]

theorem first_failing {f : Detail → Bool} {F : Detail → Prop} (h : ∀ d, f d = true ↔ F d) {l : List Detail} {d : Detail}
    (hl : l.find? f = some d) : FirstFailing F l d := by
  induction l with
  | nil => cases hl
  | cons x rest ih =>
    rw [List.find?_cons] at hl
    cases hx : f x with
    | true => rw [hx] at hl; exact .inl ⟨(h x).mp hx, (Option.some.inj hl).symm⟩
    | false => rw [hx] at hl; exact .inr ⟨(fun c => absurd ((h x).mpr c) (by rw [hx]; decide)), ih hl⟩

/-- With no window enabled nothing is open. -/
theorem none_open {s : State} {k : RecordKind} {r : PassRecord} (hw : s.rm = List.replicate 8 {}) :
    false = true ↔ Fails s k r .pathOpen := by
  refine ⟨(fun h => by cases h), ?_⟩
  rintro ⟨p, -, -, x, -, -, h⟩
  rw [hw] at h
  cases h

theorem passes_of {s : State} {p : Nat} {k : RecordKind} {r : PassRecord} (hp : s.tg.p = some p)
    (hw : s.rm = List.replicate 8 {}) (h : ∀ d ∈ checkOrder, failsAt s p false k r d = false) : Passes s k r :=
  fun d hd c => by have := h d hd; rw [(failsAt_iff hp (none_open hw) d).mpr c] at this; cases this

theorem fails_with {s : State} {p : Nat} {k : RecordKind} {r : PassRecord} {d : Detail} (hp : s.tg.p = some p)
    (hw : s.rm = List.replicate 8 {}) (hr : r.kind = some k) (hk : k ≠ .branch)
    (h : checkOrder.find? (failsAt s p false k r) = some d) : FailsWith s r d :=
  .inr ⟨k, hr, hk, first_failing (failsAt_iff hp (none_open hw)) h⟩

/-- A WELD with a lead and a trail part, each distance at its limit. -/
def jointRecord : PassRecord :=
  { weldRecord with leadId := 5, trailId := 6, release := 4000, entryX := 3000, standoff := 2000, coolDwell := 750 }
/-- A station of rank 1 between ranks 0 and 2. -/
def between (s : State) : State :=
  { s with ownRank := 1, nt := { view := 0b00000111, entries := freshEntries 1 } }
/-- A BRANCH to `i`, where a record stands. -/
def branches (i : Nat) (r : PassRecord) : State :=
  { fetches { weldRecord with kindCode := 5, rate := i } with pm := writeBytes [] (32 * i) (recordBytes r) }

/-- A record in hand passes. -/
theorem starts_at {s : State} {k : RecordKind} (r : PassRecord) (hr : s.px.record = some r) (hk : r.kind = some k)
    (hb : k ≠ .branch) (hs : s.px.state = .fetching) (hl : s.su.lineResetPending = false) (hp : s.tg.p = some 1000)
    (hw : s.rm = List.replicate 8 {}) (h : ∀ d ∈ checkOrder, failsAt s 1000 false k r d = false) :
    s.px.state = .fetching ∧ WorksFrom s r s.px.index ∧ r.kind = some k ∧ k ≠ .branch ∧ Passes s k r
      ∧ s.su.lineResetPending = false :=
  ⟨hs, .inl ⟨hr, fun e => by rw [hk] at e; cases e; exact hb rfl, rfl⟩, hk, hb, passes_of hp hw h, hl⟩

/-- Each kind; a WELD's two roles, its joint parts at their limits, the list with room and full, the clamps made and open; the
line asserted; and the last index as a BRANCH's target. -/
theorem witness_RecordStarts :
    (∃ i, (fetches { moveRecord with endPos := 33554431 }).px.state = .fetching
      ∧ WorksFrom (fetches { moveRecord with endPos := 33554431 }) { moveRecord with endPos := 33554431 } i
      ∧ Passes (fetches { moveRecord with endPos := 33554431 }) .move { moveRecord with endPos := 33554431 })
    ∧ Passes (fetches dryRecord) .dry dryRecord
    ∧ Passes (fetches { pauseRecord with rate := 65535 }) .pause { pauseRecord with rate := 65535 }
    ∧ (Passes (between (fetches jointRecord)) .weld jointRecord
      ∧ rankBehind (between (fetches jointRecord)) (weldHeading (between (fetches jointRecord)) jointRecord) = some 0
      ∧ rankAhead (between (fetches jointRecord)) .up = some 2 ∧ (fetches jointRecord).dp.clamp = true
      ∧ (fetches jointRecord).su.station = .running ∧ (fetches jointRecord).hs.state = .parked)
    ∧ Passes { between (fetches jointRecord) with ju := (holds).ju } .weld jointRecord
    ∧ (Passes (continues weldRecord) .weld weldRecord ∧ (continues weldRecord).hs.weld = some (weldOf true)
      ∧ (continues weldRecord).hs.state = .stirring)
    ∧ ((branches 511 weldRecord).px.firstRecord = false ∧ WorksFrom (branches 511 weldRecord) weldRecord 511
      ∧ Branches (branches 511 weldRecord) ∧ Passes (branches 511 weldRecord) .weld weldRecord)
    ∧ (Passes { fetches weldRecord with dp := {} } .weld weldRecord ∧ ({} : DrivePort).clamp = false ∧ ({} : DrivePort).estop = false)
    ∧ ({ fetches moveRecord with dp := { estop := true } } : State).dp.estop = true := by
  refine ⟨⟨_, (starts_at (k := .move) _ rfl rfl (by decide) rfl rfl rfl rfl (by decide)).1,
      (starts_at (k := .move) _ rfl rfl (by decide) rfl rfl rfl rfl (by decide)).2.1, passes_of rfl rfl (by decide)⟩,
    passes_of rfl rfl (by decide), passes_of rfl rfl (by decide), ⟨passes_of rfl rfl (by decide), by decide⟩,
    passes_of rfl rfl (by decide), ⟨passes_of rfl rfl (by decide), rfl, rfl⟩,
    ⟨rfl, .inr ⟨rfl, ⟨_, rfl, rfl, rfl⟩, by decide, by decide⟩, ⟨_, rfl, rfl⟩, passes_of rfl rfl (by decide)⟩,
    ⟨passes_of rfl rfl (by decide), rfl, rfl⟩, rfl⟩

/-- The end of the path lies in an OPEN window. -/
def opensAt5000 : State :=
  { fetches weldRecord with rm := [{ enable := true, base := 5000, kind := .opening }] }

/-- Each detail of the statement, at a boundary of its range where it has one: the record in hand and the target of a
BRANCH, both roles, p known and not. -/
theorem witness_FetchChecksInOrder :
    (∀ c ∈ [0, 6], FailsWith (fetches weldRecord) { weldRecord with kindCode := c } .invalidKind)
    ∧ FailsWith (continues moveRecord) moveRecord .continueKind
    ∧ FailsWith (fetches weldRecord) { weldRecord with rate := 401 } .fieldRange
    ∧ FailsWith (fetches weldRecord) { weldRecord with start := 1001 } .startMismatch
    ∧ FailsWith { fetches moveRecord with tg := {} } moveRecord .startMismatch
    ∧ (FailsWith (fetches weldRecord) { weldRecord with endPos := 1000 } .zeroLength
      ∧ FailsWith (continues weldRecord) { weldRecord with endPos := 1000 } .zeroLength)
    ∧ FailsWith (continues weldRecord) { weldRecord with endPos := 999 } .direction
    ∧ FailsWith { fetches moveRecord with constants := { railMax := 4999 } } moveRecord .railRange
    ∧ FailsWith opensAt5000 weldRecord .pathOpen
    ∧ (FailsWith (between (fetches jointRecord)) { jointRecord with release := 4001 } .jointGeometry
      ∧ FailsWith (between (fetches jointRecord)) { jointRecord with entryX := 5000 } .jointGeometry
      ∧ FailsWith (between (fetches jointRecord)) { jointRecord with standoff := 2001 } .jointGeometry
      ∧ FailsWith (between (continues jointRecord)) jointRecord .jointGeometry)
    ∧ FailsWith (fetches jointRecord) jointRecord .jointPartner
    ∧ FailsWith { between (fetches jointRecord) with ju := { openList := [⟨5, 0, .ready, 0, 9⟩] } } jointRecord .jointDuplicate
    ∧ FailsWith { between (fetches jointRecord) with ju := { closedList := [6] } } jointRecord .jointReused
    ∧ (WorksFrom (fetches weldRecord) weldRecord 0 ∧ WorksFrom (branches 511 weldRecord) weldRecord 511)
    ∧ (WorksFrom (branches 511 { weldRecord with kindCode := 5 }) { weldRecord with kindCode := 5 } 511
      ∧ Branches (branches 511 { weldRecord with kindCode := 5 }))
    ∧ (let s : State := branches 512 weldRecord
     s.px.record = some { weldRecord with kindCode := 5, rate := 512 } ∧ s.px.firstRecord = false ∧ s.px.state = .fetching
       ∧ s.su.lineResetPending = false)
    ∧ ({ (branches 511 weldRecord).px with firstRecord := true } : PassExecutor).firstRecord = true
    ∧ ((continues weldRecord).px.role = .continuation ∧ (continues weldRecord).hs.state = .stirring
      ∧ (continues weldRecord).tg.v = 0) := by
  refine ⟨fun c hc => .inl ⟨?_, rfl⟩, fails_with rfl rfl (k := .move) rfl (by decide) (by decide),
    fails_with rfl rfl (k := .weld) rfl (by decide) (by decide), fails_with rfl rfl (k := .weld) rfl (by decide) (by decide),
    .inr ⟨.move, rfl, by decide, .inr ⟨fun h => absurd h.1 (by decide), .inr ⟨fun h => h ((fieldsOk_iff ..).mp (by decide)),
      .inl ⟨.inl ⟨rfl, .inr (.inr rfl)⟩, rfl⟩⟩⟩⟩,
    ⟨fails_with rfl rfl (k := .weld) rfl (by decide) (by decide), fails_with rfl rfl (k := .weld) rfl (by decide) (by decide)⟩,
    fails_with rfl rfl (k := .weld) rfl (by decide) (by decide), fails_with rfl rfl (k := .move) rfl (by decide) (by decide),
    .inr ⟨.weld, rfl, by decide, first_failing (failsAt_iff (p := 1000) (o := true) rfl
      ⟨fun _ => ⟨1000, rfl, rfl, 5000, by decide, by decide, by decide⟩, fun _ => rfl⟩) (by decide)⟩,
    ⟨fails_with rfl rfl (k := .weld) rfl (by decide) (by decide), fails_with rfl rfl (k := .weld) rfl (by decide) (by decide),
      fails_with rfl rfl (k := .weld) rfl (by decide) (by decide), fails_with rfl rfl (k := .weld) rfl (by decide) (by decide)⟩,
    fails_with rfl rfl (k := .weld) rfl (by decide) (by decide), fails_with rfl rfl (k := .weld) rfl (by decide) (by decide),
    fails_with rfl rfl (k := .weld) rfl (by decide) (by decide),
    ⟨.inl ⟨rfl, by decide, rfl⟩, .inr ⟨rfl, ⟨_, rfl, rfl, rfl⟩, by decide, by decide⟩⟩,
    ⟨.inr ⟨rfl, ⟨_, rfl, rfl, rfl⟩, by decide, by decide⟩, _, rfl, rfl⟩, by decide, rfl, by decide⟩
  revert c
  decide

/-- A WELD with a lead part for rank 1 that waits, `n` other joints open. -/
def waits (n : Nat) (estop clamp : Bool) : State :=
  { runs .waitSlot { weldRecord with leadId := 5, release := 300 } with
    px := { state := .waitSlot, record := some { weldRecord with leadId := 5, release := 300 }, passed := true, leadPartner := some 1 }
    ju := { openList := (List.range n).map (fun i => ⟨i + 10, 1, .ready, 0, 900⟩) }
    dp := { clamp := clamp, estop := estop } }

theorem witness_HeldRecordStarts :
    (let s := waits 3 false true
     let r := { weldRecord with leadId := 5, release := 300 }
     s.px.state = .waitSlot ∧ s.px.record = some r ∧ s.px.role = .fresh ∧ s.px.passed = true ∧ r.kind = some .weld ∧ r.leadId ≠ 0
       ∧ r.leadId ∉ s.ju.openList.map (fun e => e.id) ∧ s.px.leadPartner = some 1 ∧ r.trailId = 0 ∧ s.ju.awaited = none
       ∧ s.hs.state = .parked ∧ s.su.station = .running ∧ s.tg.p = some 1000 ∧ s.su.lineResetPending = false
       ∧ s.ju.openList.length < 4 ∧ s.dp.estop = false ∧ s.dp.clamp = true)
    ∧ (4 ≤ (waits 4 false true).ju.openList.length ∧ (waits 4 false true).pli.changeNoted = false)
    ∧ ((waits 3 false false).dp.clamp = false ∧ (waits 3 false false).dp.estop = false)
    ∧ ((waits 3 true true).dp.estop = true ∧ (waits 3 true true).ju.currentLead = none)
    ∧ (let s : State := { waits 3 false true with px := { (waits 3 false true).px with
         record := some { jointRecord with cont := true }, trailPartner := some 2 } }
     s.px.record = some { jointRecord with cont := true } ∧ jointRecord.trailId ≠ 0 ∧ s.px.trailPartner ≠ none
       ∧ s.px.leadPartner = some 1 ∧ s.ju.awaited = none) := by decide

theorem witness_RecordCloseEndsChain :
    (let s := ending .awaitHeadEnd .complete .parked
     s.px.state = .awaitHeadEnd ∧ s.px.decided = some ⟨.complete, none⟩ ∧ s.px.record = some weldRecord ∧ s.tg.v = 0
       ∧ s.hs.state = .parked ∧ s.tg.p = some 1000 ∧ s.su.lineResetPending = false ∧ weldRecord.chain = false
       ∧ weldRecord.cont = false ∧ s.px.passed = true ∧ weldRecord.kind = some .weld)
    ∧ ((ending .halting .halted .parked).px.decided = some ⟨.halted, none⟩ ∧ (ending .halting .halted .parked).px.state = .halting)
    ∧ (let s : State := { ending .awaitHeadEnd .fault .parked with tg := { p := some 1000, v := 1 } }
     0 < s.tg.v ∧ s.pli.changeNoted = false ∧ s.px.state = .awaitHeadEnd) := by decide

/-- A decided end of a WELD with its flags, at record `i`, p at its end. -/
def goesOn (k : EndKind) (chain cont tolerate : Bool) (i : Nat) : State :=
  { ending .awaitHeadEnd k .parked with
    px := { state := .awaitHeadEnd, index := i, passed := true, decided := some ⟨k, none⟩
            record := some { weldRecord with chain := chain, cont := cont, tolerate := tolerate } } }
/-- A WELD with CONTINUE set at its end. -/
def runsOn : State :=
  let s := atEnd (welds .stirring)
  { s with
    px := { state := .active, index := 510, passed := true, record := some { weldRecord with cont := true } }
    hs := { s.hs with weld := some (weldOf true) } }

/-- The last index that can be fetched, and the first that can't; each of the three ways on. -/
theorem witness_ChainGoesOn :
    (let s := goesOn .complete true false false 510
     s.px.state = .awaitHeadEnd ∧ s.px.decided = some ⟨.complete, none⟩ ∧ s.tg.v = 0 ∧ s.hs.state = .parked
       ∧ s.tg.p = some 1000 ∧ s.su.lineResetPending = false ∧ s.px.index + 1 ≤ 511)
    ∧ 512 ≤ (goesOn .complete true false false 511).px.index + 1
    ∧ (goesOn .short false true true 9).px.decided = some ⟨.short, none⟩
    ∧ (goesOn .voidAlt true false false 509).px.index + 2 ≤ 511
    ∧ (runsOn.px.state = .active ∧ runsOn.px.record = some { weldRecord with cont := true }
      ∧ runsOn.tg.target = some ⟨.weld, 5000, 100⟩ ∧ runsOn.tg.p = some 5000 ∧ runsOn.tg.lastEnd = some 5000
      ∧ runsOn.tg.phaseOpen = true ∧ runsOn.tg.v ≤ runsOn.constants.decel ∧ runsOn.hs.state = .stirring
      ∧ runsOn.hs.weld = some (weldOf true) ∧ (weldOf true).cont = true ∧ runsOn.px.index < 511)
    ∧ 511 ≤ ({ runsOn.px with index := 511 } : PassExecutor).index := by decide

theorem witness_HaltByState :
    (Taken .halt 8 255 [] idleAt ∧ idleAt.px.state = .idle ∧ idleAt.pli.changeNoted = false)
    ∧ ((ending .awaitHeadEnd .fault .parked).px.decided = some ⟨.fault, none⟩)
    ∧ (Taken .halt 8 255 [] (waits 4 false true) ∧ (waits 4 false true).px.state = .waitSlot
      ∧ (waits 4 false true).su.lineResetPending = false)
    ∧ ((fetches moveRecord).px.state = .fetching ∧ (fetches moveRecord).px.role = .fresh)
    ∧ (Taken .halt 8 255 [] (continues weldRecord) ∧ (continues weldRecord).px.state = .fetching
      ∧ (continues weldRecord).px.role = .continuation ∧ (continues weldRecord).hs.state.working = true)
    ∧ ({ moves with tg := { moves.tg with v := 0 } } : State).tg.v = 0
    ∧ (Taken .halt 8 255 [] (welds .stirring) ∧ (welds .stirring).px.state = .active ∧ 0 < (welds .stirring).tg.v
      ∧ (welds .stirring).hs.state.working = true)
    ∧ ((welds .plunging).hs.state ≠ .stirring ∧ (welds .plunging).hs.state.working = true)
    ∧ (Taken .halt 8 255 [] (ending .awaitHeadEnd .complete .retracting)
      ∧ (ending .awaitHeadEnd .complete .retracting).px.decided = some ⟨.complete, none⟩) :=
  ⟨⟨taken_fixed (n := 0) (by decide), rfl, rfl⟩, rfl, ⟨taken_fixed (n := 0) (by decide), rfl, rfl⟩, ⟨rfl, rfl⟩,
    ⟨taken_fixed (n := 0) (by decide), rfl, rfl, rfl⟩, rfl,
    ⟨taken_fixed (n := 0) (by decide), rfl, by decide, rfl⟩, ⟨by decide, rfl⟩,
    taken_fixed (n := 0) (by decide), rfl⟩

end Sys2Proof.Tests
end

namespace Sys2Proof.Machine

/-! ### The range invariant, block by block

`InRange` and `WithinBounds` are taken apart into one predicate per block, and `Kept` puts them together in the form that
holds inside an event too, where a change may already be noted (log 10). `full` says whether `WithinBounds` is meant with it, so
each operation is looked at once for both halves of RangesKept. -/

/-- R20, R33: speed and position. -/
def TravelRanged (g : TravelGovernor) : Prop :=
  g.v ≤ Config.speedTop ∧ ∀ p, g.p = some p → p ≤ Config.railTop

/-- R20: the Travel Governor's other items. -/
structure TravelBounded (g : TravelGovernor) : Prop where
  stall : g.stallCount ≤ Config.countTop
  stir : g.stirCount ≤ 2500
  fence : ∀ x, g.fence = some x → x ≤ Config.railTop
  lastEnd : ∀ x, g.lastEnd = some x → x ≤ Config.railTop
  target : ∀ m, g.target = some m → m.endPos ≤ Config.railTop ∧ m.rate ≤ 2000

/-- R82: what a WELD that may be held in WAIT_SLOT has passed. -/
def HeldSound (r : PassRecord) : Prop :=
  FieldsInRange .fresh .weld r ∧ r.endPos ≠ r.start ∧ (r.leadId ≠ 0 → r.release ≤ distance r.endPos r.start)
    ∧ (r.trailId ≠ 0 → r.endPos < r.start → r.entryX + r.standoff ≤ r.start)

/-- R91: the completion record. -/
def CompletionBounded (c : Completion) : Prop :=
  c.index ≤ 511 ∧ c.position ≤ Config.railTop ∧ c.remaining ≤ Config.railTop

/-- R72, R82, R91: the Pass Executor. -/
structure ExecutorBounded (x : PassExecutor) : Prop where
  index : x.index ≤ 511
  pauseCount : x.pauseCount ≤ Config.countTop
  override : 50 ≤ x.overrideInForce ∧ x.overrideInForce ≤ 120
  pendingOverride : ∀ y, x.pendingOverride = some y → 50 ≤ y ∧ y ≤ 120
  completion : CompletionBounded x.completion
  record : ∀ r, x.record = some r → r.carried
  held : x.state = .waitSlot → ∀ r, x.record = some r → HeldSound r

/-- R61, R99: the weld parameters. -/
structure WeldBounded (w : WeldParams) : Prop where
  rpm : 200 ≤ w.rpm ∧ w.rpm ≤ 3000
  depth : 500 ≤ w.depth ∧ w.depth ≤ Config.depthTop
  plungeRate : 1 ≤ w.plungeRate ∧ w.plungeRate ≤ 255
  dwell : w.dwell ≤ 2500
  setpoint : 100 ≤ w.setpoint ∧ w.setpoint ≤ Config.forceTop

/-- R99, R107: the Head Sequencer, its trim within −`limit` to +`limit`. -/
structure HeadBounded (limit : Nat) (h : HeadSequencer) : Prop where
  phase : h.phase ≤ Config.countTop
  zCommand : h.zCommand ≤ Config.depthTop
  spindle : h.spindle = 0 ∨ (200 ≤ h.spindle ∧ h.spindle ≤ 3000)
  force : h.force ≤ Config.forceTop
  forceAge : h.forceAge ≤ Config.countTop
  trim : -(limit : Int) ≤ h.trim ∧ h.trim ≤ limit
  weld : ∀ w, h.weld = some w → WeldBounded w

/-- R124: an open joint. -/
def OpenBounded (e : OpenJoint) : Prop :=
  1 ≤ e.id ∧ e.id ≤ 255 ∧ e.age ≤ Config.countTop ∧ e.release ≤ Config.railTop

/-- R124: an awaited joint. -/
def AwaitedBounded (a : AwaitedJoint) : Prop :=
  1 ≤ a.id ∧ a.id ≤ 255 ∧ a.entryX ≤ Config.railTop ∧ a.hold ≤ Config.railTop ∧ a.coolDwell ≤ Config.countTop
    ∧ a.remaining ≤ Config.countTop

/-- R124: the Joint Unit. -/
structure JointsBounded (u : JointUnit) : Prop where
  openList : ∀ e ∈ u.openList, OpenBounded e
  awaited : ∀ a, u.awaited = some a → AwaitedBounded a
  closed : ∀ i ∈ u.closedList, 1 ≤ i ∧ i ≤ 255

/-- R136. -/
def ClosedRanged (u : JointUnit) : Prop :=
  u.closedList.length ≤ Config.jointCapacity ∧ u.closedList.Nodup

/-- R174, R176: the Drive Port. -/
structure PortBounded (d : DrivePort) : Prop where
  age : d.age ≤ Config.countTop
  slot : ∀ m, d.slot = some m → m.force ≤ Config.forceTop
  held : ∀ h, d.held = some h → h.force ≤ Config.forceTop ∧ ∀ p, h.position = some p → p ≤ Config.railTop

/-- R4, R5: a filed beacon. -/
def ContentBounded (c : BeaconContent) : Prop :=
  c.speed ≤ Config.speedTop ∧ (∀ p, c.position = some p → p ≤ Config.railTop) ∧ c.openList.length ≤ Config.jointCapacity
    ∧ c.closedList.length ≤ Config.jointCapacity

/-- R2, R4: the Neighbour Table of a station of rank `own`. -/
structure TableRanged (own : Rank) (stale : Nat) (t : NeighbourTable) : Prop where
  view : inView t.view own = true
  ranks : t.entries.map (fun e => e.rank) = allRanks.filter (fun r => r ≠ own)
  lawful : ∀ e ∈ t.entries, e.lawful stale

/-- Every filed beacon of the table is in its ranges. -/
def TableBounded (t : NeighbourTable) : Prop :=
  ∀ e ∈ t.entries, ∀ c, e.content = some c → ContentBounded c

/-- R149, R153: the Peer Line Interface. -/
def LineRanged (l : PeerLine) : Prop :=
  l.replies.length + (if l.transmitting.any OwnFrame.isReply then 1 else 0) ≤ Config.replyCapacity ∧ l.periodCount ≤ 64

/-- `InRange` but for the mark of a noted change. -/
structure Ranged (s : State) : Prop where
  memory : Memory.wf s.pm = true ∧ ∀ c ∈ s.pm, c.1 < Config.recordCount * Config.recordBytes
  windows : s.rm.length = 8 ∧ ∀ w ∈ s.rm, w.inRange
  constants : s.constants.inRange
  table : TableRanged s.ownRank s.constants.staleLimit s.nt
  travel : TravelRanged s.tg
  trim : s.hs.state ≠ .stirring → s.hs.trim = 0
  enable : s.su.station = .unconfigured ∨ s.hs.state = .halted → s.dp.enable = false
  line : LineRanged s.pli
  closed : ClosedRanged s.ju

/-- `WithinBounds`, by blocks. -/
structure Bounded (s : State) : Prop where
  travel : TravelBounded s.tg
  executor : ExecutorBounded s.px
  notify : ∀ i, s.su.notifyIndex = some i → i ≤ 511
  head : HeadBounded s.constants.trimLimit s.hs
  joints : JointsBounded s.ju
  port : PortBounded s.dp
  table : TableBounded s.nt

theorem inRange_iff (s : State) : InRange s ↔ Ranged s ∧ s.pli.changeNoted = false := by
  constructor
  · intro h
    exact ⟨⟨h.memory, h.windows, h.constants, ⟨h.view, h.entries.1, h.entries.2⟩, ⟨h.speed, h.position⟩, h.trim, h.enable,
      ⟨h.replies, h.period⟩, h.closed⟩, h.noted⟩
  · rintro ⟨h, hn⟩
    exact ⟨h.memory, h.windows, h.constants, h.table.view, ⟨h.table.ranks, h.table.lawful⟩, h.travel.1, h.travel.2, h.trim,
      h.enable, h.line.1, h.line.2, hn, h.closed⟩

theorem withinBounds_iff (s : State) : WithinBounds s ↔ Bounded s := by
  constructor
  · intro h
    obtain ⟨h1, h2, h3, h4, h5⟩ := h.travel
    obtain ⟨x1, x2, x3, x4, x5⟩ := h.executor
    obtain ⟨y1, y2, y3, y4, y5, y6, y7⟩ := h.head
    obtain ⟨z1, z2, z3⟩ := h.port
    refine ⟨⟨h1, h2, h3, h4, h5⟩, ⟨x1, x2, ⟨x3, x4⟩, x5, h.completion, h.record, h.heldRecord⟩, h.notify,
      ⟨y1, y2, y3, y4, y5, ⟨y6, y7⟩, fun w hw => ?_⟩, ⟨h.openJoints, h.awaited, h.closed⟩, ⟨z1, z2, z3⟩, h.beacons⟩
    obtain ⟨w1, w2, w3, w4, w5, w6, w7, w8, w9⟩ := h.weld w hw
    exact ⟨⟨w1, w2⟩, ⟨w3, w4⟩, ⟨w5, w6⟩, w7, w8, w9⟩
  · intro h
    obtain ⟨g, x, n, hd, j, d, t⟩ := h
    refine ⟨⟨g.stall, g.stir, g.fence, g.lastEnd, g.target⟩,
      ⟨x.index, x.pauseCount, x.override.1, x.override.2, x.pendingOverride⟩, x.completion, x.record, x.held, n,
      ⟨hd.phase, hd.zCommand, hd.spindle, hd.force, hd.forceAge, hd.trim.1, hd.trim.2⟩, fun w hw => ?_,
      j.openList, j.awaited, j.closed, ⟨d.age, d.slot, d.held⟩, t⟩
    obtain ⟨a, b, c, e, f⟩ := hd.weld w hw
    exact ⟨a.1, a.2, b.1, b.2, c.1, c.2, e, f.1, f.2⟩

/-- What every operation keeps inside an event: the ranges of `InRange`, and with `full` those of `WithinBounds`. -/
structure Kept (full : Prop) (s : State) : Prop where
  ranged : Ranged s
  bounded : full → Bounded s

namespace Kept

variable {full : Prop} {s : State}

/-! ### One block replaced -/

theorem withTg (h : Kept full s) {x : TravelGovernor} (hr : TravelRanged x) (hb : full → TravelBounded x) :
    Kept full (s.withTg x) :=
  ⟨{ h.ranged with travel := hr }, fun f => { h.bounded f with travel := hb f }⟩

theorem withPx (h : Kept full s) {x : PassExecutor} (hb : full → ExecutorBounded x) : Kept full (s.withPx x) :=
  ⟨{ h.ranged with }, fun f => { h.bounded f with executor := hb f }⟩

theorem withHs (h : Kept full s) {x : HeadSequencer} (trim : x.state ≠ .stirring → x.trim = 0)
    (enable : x.state = .halted → s.dp.enable = false) (hb : full → HeadBounded s.constants.trimLimit x) :
    Kept full (s.withHs x) :=
  ⟨{ h.ranged with trim := trim, enable := fun ho => ho.elim (fun hu => h.ranged.enable (.inl hu)) enable },
    fun f => { h.bounded f with head := hb f }⟩

theorem withJu (h : Kept full s) {x : JointUnit} (hr : ClosedRanged x) (hb : full → JointsBounded x) :
    Kept full (s.withJu x) :=
  ⟨{ h.ranged with closed := hr }, fun f => { h.bounded f with joints := hb f }⟩

theorem withDp (h : Kept full s) {x : DrivePort}
    (enable : s.su.station = .unconfigured ∨ s.hs.state = .halted → x.enable = false) (hb : full → PortBounded x) :
    Kept full (s.withDp x) :=
  ⟨{ h.ranged with enable := enable }, fun f => { h.bounded f with port := hb f }⟩

theorem withSu (h : Kept full s) {x : StatusUnit} (station : x.station = .unconfigured → s.su.station = .unconfigured)
    (notify : full → ∀ i, x.notifyIndex = some i → i ≤ 511) : Kept full (s.withSu x) :=
  ⟨{ h.ranged with enable := fun ho => h.ranged.enable (ho.imp_left station) },
    fun f => { h.bounded f with notify := notify f }⟩

theorem withPli (h : Kept full s) {x : PeerLine} (hr : LineRanged x) : Kept full (s.withPli x) :=
  ⟨{ h.ranged with line := hr }, fun f => { h.bounded f with }⟩

theorem withFree (h : Kept full s) (n : Nat) : Kept full (s.withFree n) :=
  ⟨{ h.ranged with }, fun f => { h.bounded f with }⟩

theorem withNt (h : Kept full s) {x : NeighbourTable} (hr : TableRanged s.ownRank s.constants.staleLimit x)
    (hb : full → TableBounded x) : Kept full (s.withNt x) :=
  ⟨{ h.ranged with table := hr }, fun f => { h.bounded f with table := hb f }⟩

/-- The Peer Line Interface as reported changes leave it (R154). -/
theorem line_of_lineKeeps {l m : PeerLine} (h : LineRanged l) (k : LineKeeps l m) : LineRanged m := by
  unfold LineKeeps at k
  rw [← k] at h
  exact h

/-- A state that reported changes alone tell from one that is kept. -/
theorem withLine (h : Kept full s) {l : PeerLine} (k : LineKeeps s.pli l) : Kept full (s.withPli l) :=
  h.withPli (line_of_lineKeeps h.ranged.line k)

theorem of_pli {t : State} (h : Kept full s) (k : Keeps [.pli] s t) (hl : LineKeeps s.pli t.pli) : Kept full t := by
  rw [eq_of_keeps_pli k]
  exact h.withLine hl

end Kept

end Sys2Proof.Machine

namespace Sys2Proof.Machine

variable {full : Prop} {s : State}

/-! ### Changes, flags and the own beacon -/

theorem noteChange_kept (h : Kept full s) : Kept full (noteChange s) := h.withPli h.ranged.line

theorem settle_kept (h : Kept full s) : Kept full (settle s) := h.of_pli (settle_keeps s) (lineKeeps_settle s)

theorem beaconDue_kept (h : Kept full s) : Kept full (beaconDue s) := h.of_pli (beaconDue_keeps s) (lineKeeps_beaconDue s)

theorem setStation_kept (h : Kept full s) {x : StationState} (hx : x ≠ .unconfigured) : Kept full (setStation x s) := by
  unfold setStation
  split
  · exact h
  · exact noteChange_kept (h.withSu (fun hu => absurd hu hx) (fun f => (h.bounded f).notify))

theorem setExecutor_kept (h : Kept full s) {x : ExecutorState}
    (hx : full → x = .waitSlot → ∀ r, s.px.record = some r → HeldSound r) : Kept full (setExecutor x s) := by
  unfold setExecutor
  split
  · exact h
  · exact noteChange_kept (h.withPx (fun f => { (h.bounded f).executor with held := hx f }))

/-- The executor leaves for a state other than WAIT_SLOT. -/
theorem setExecutor_kept_of_ne (h : Kept full s) {x : ExecutorState} (hx : x ≠ .waitSlot) : Kept full (setExecutor x s) :=
  setExecutor_kept h (fun _ hw => absurd hw hx)

theorem setIndex_kept (h : Kept full s) {i : Nat} (hi : i ≤ 511) : Kept full (setIndex i s) := by
  unfold setIndex
  split
  · exact h
  · exact noteChange_kept (h.withPx (fun f => { (h.bounded f).executor with index := hi }))

theorem setCompletionPending_kept (h : Kept full s) (b : Bool) : Kept full (setCompletionPending b s) := by
  unfold setCompletionPending
  split
  · exact h
  · exact noteChange_kept (h.withPx (fun f => { (h.bounded f).executor with }))

theorem setJoints_kept (h : Kept full s) {x : JointUnit} (hr : ClosedRanged x) (hb : full → JointsBounded x) :
    Kept full (setJoints x s) := by
  unfold setJoints
  split
  · exact h.withJu hr hb
  · exact noteChange_kept (h.withJu hr hb)

/-- Flags are free to change. -/
theorem withFlags_kept (h : Kept full s) (b : BitVec 14) : Kept full (s.withSu { s.su with flags := b }) :=
  h.withSu id (fun f => (h.bounded f).notify)

theorem raise_kept (h : Kept full s) (f : AttentionFlag) : Kept full (raise f s) := by
  unfold raise
  split
  · exact noteChange_kept (withFlags_kept h _)
  · exact withFlags_kept h _

theorem raiseIf_kept (h : Kept full s) (b : Bool) (f : AttentionFlag) : Kept full (raiseIf b f s) := by
  unfold raiseIf
  split
  · exact raise_kept h f
  · exact h

theorem clearFlags_kept (h : Kept full s) : Kept full (clearFlags s) := by
  unfold clearFlags
  split
  · exact h
  · exact noteChange_kept (withFlags_kept h 0)

/-! ### Counts and distances -/

theorem countUp_le (n : Nat) : countUp n ≤ Config.countTop := Nat.min_le_right _ _

theorem distance_le {a b n : Nat} (ha : a ≤ n) (hb : b ≤ n) : distance a b ≤ n := by unfold distance; omega

/-! ### The Travel Governor's computation -/

theorem recordSpeed_le (t : MotionTarget) (derate override : Nat) : recordSpeed t derate override ≤ Config.speedTop :=
  Nat.min_le_left _ _

theorem targetSpeed_le (s : State) : targetSpeed s ≤ Config.speedTop := by
  unfold targetSpeed
  split
  · split
    · exact recordSpeed_le _ _ _
    · exact Nat.zero_le _
  · exact Nat.zero_le _

/-- A candidate further on does not bring an upward fence below p, nor takes it up. -/
theorem nearer_up (p f : Nat) (x : Option Nat) (h : p ≤ f) : p ≤ nearer .up p f x ∧ nearer .up p f x ≤ f := by
  cases x with
  | none => exact ⟨h, Nat.le_refl f⟩
  | some x => simp only [nearer, notBehind]; omega

theorem nearer_down (p f : Nat) (x : Option Nat) (h : f ≤ p) : nearer .down p f x ≤ p := by
  cases x with
  | none => exact h
  | some x => simp only [nearer, notBehind]; omega

/-- R29: the fence of an upward computation lies between p and the farther of p and the rail's end. -/
theorem fenceAt_up (s : State) (p : Nat) (hd : s.tg.dir = .up) :
    p ≤ fenceAt s p ∧ fenceAt s p ≤ max p s.constants.railMax := by
  simp only [fenceAt, hd]
  have h0 : p ≤ notBehind .up p (railLimit s.constants .up) := by simp only [notBehind]; omega
  have h1 := nearer_up p _ (neighbourCandidate s.constants .up p (neighbourView s .up)) h0
  have h2 := nearer_up p _ s.tg.lastEnd h1.1
  have h3 := nearer_up p _ (holdCandidate s.ju) h2.1
  exact ⟨h3.1, h3.2.trans (h2.2.trans h1.2)⟩

/-- R29: the fence of a downward computation is not above p. -/
theorem fenceAt_down (s : State) (p : Nat) (hd : s.tg.dir = .down) : fenceAt s p ≤ p := by
  simp only [fenceAt, hd]
  have h0 : notBehind .down p (railLimit s.constants .down) ≤ p := by simp only [notBehind]; omega
  exact nearer_down p _ _ (nearer_down p _ _ (nearer_down p _ _ h0))

theorem fenceAt_le {s : State} (h : Ranged s) {p : Nat} (hp : p ≤ Config.railTop) : fenceAt s p ≤ Config.railTop := by
  cases hd : s.tg.dir with
  | up =>
    obtain ⟨_, _, _, _, _, _, _, hr, _⟩ := h.constants
    have := (fenceAt_up s p hd).2
    omega
  | down => exact (fenceAt_down s p hd).trans hp

theorem computeTravel_v_le_distance (s : State) (p : Nat) : (computeTravel s p).v ≤ distance (fenceAt s p) p :=
  (newSpeed_le _ _ _ _).2.2

/-- R33: the carriage stays on the rail. -/
theorem computeTravel_p_le {s : State} (h : Ranged s) {p : Nat} (hp : p ≤ Config.railTop) :
    (computeTravel s p).p ≤ Config.railTop := by
  have hv := computeTravel_v_le_distance s p
  change advance s.tg.dir p (computeTravel s p).v ≤ _
  cases hd : s.tg.dir with
  | up =>
    have h1 := (fenceAt_up s p hd).1
    have h2 := fenceAt_le h hp
    simp only [advance, distance] at hv ⊢
    omega
  | down => exact (Nat.sub_le p _).trans hp

theorem computeTravel_v_le {s : State} (h : Ranged s) (p : Nat) : (computeTravel s p).v ≤ Config.speedTop :=
  ((newSpeed_le _ _ _ _).1.trans (rampedSpeed_le _ _ _ _).2).trans (max_le h.travel.1 (targetSpeed_le s))

/-- The counters a computation leaves. -/
theorem travelReport_counts {s : State} (h : TravelBounded s.tg) (p v : Nat) :
    (travelReport s p v).2.1 ≤ Config.countTop ∧ (travelReport s p v).2.2 ≤ 2500 := by
  have hs := h.stall
  have hc := h.stir
  unfold travelReport
  split
  · exact ⟨Nat.zero_le _, Nat.zero_le _⟩
  · split
    · split
      · exact ⟨hs, hc⟩
      · split
        · split
          · exact ⟨hs, hc⟩
          · exact ⟨hs, Nat.min_le_right _ _⟩
        · exact ⟨countUp_le _, hc⟩
    · exact ⟨hs, hc⟩

/-- The Travel Governor's computation, applied (R33 to R37). -/
theorem applyTravel_kept (h : Kept full s) {r : TravelResult} (hr : travelDue s = some r) : Kept full (applyTravel r s) := by
  unfold travelDue at hr
  split at hr
  · cases hr
  · next p hp =>
    split at hr
    · cases hr
      have hpr := h.ranged.travel.2 p hp
      refine raiseIf_kept (h.withTg ⟨computeTravel_v_le h.ranged p, fun q hq => ?_⟩ (fun f => ?_)) _ _
      · cases hq; exact computeTravel_p_le h.ranged hpr
      · have hb := (h.bounded f).travel
        obtain ⟨h1, h2⟩ := travelReport_counts hb (computeTravel s p).p (computeTravel s p).v
        refine { hb with stall := h1, stir := h2, fence := fun x hx => ?_ }
        cases hx
        exact fenceAt_le h.ranged hpr
    · cases hr

theorem immediateStop_kept (h : Kept full s) : Kept full (immediateStop s) :=
  h.withTg ⟨Nat.zero_le _, h.ranged.travel.2⟩ (fun f => { (h.bounded f).travel with })

/-- The travel phase closes, or opens. -/
theorem withPhase_kept (h : Kept full s) (b : Bool) : Kept full (s.withTg { s.tg with phaseOpen := b }) :=
  h.withTg h.ranged.travel (fun f => { (h.bounded f).travel with })

theorem withdrawTarget_kept (h : Kept full s) : Kept full (withdrawTarget s) :=
  h.withTg h.ranged.travel (fun f => { (h.bounded f).travel with target := fun _ hm => nomatch hm })

theorem giveTarget_kept (h : Kept full s) {t : MotionTarget} (ht : full → t.endPos ≤ Config.railTop ∧ t.rate ≤ 2000)
    (d : Direction) (b : Bool) : Kept full (giveTarget t d b s) := by
  refine h.withTg h.ranged.travel (fun f =>
    { (h.bounded f).travel with stall := Nat.zero_le _, lastEnd := fun x hx => ?_, target := fun m hm => ?_ })
  · cases hx; exact (ht f).1
  · cases hm; exact ht f

/-- R45: the values of LINE RESET and JOB CLEAR. -/
theorem travelCleared_bounded (g : TravelGovernor) : TravelBounded (travelCleared g) :=
  ⟨Nat.zero_le _, Nat.zero_le _, by rintro _ ⟨⟩, by rintro _ ⟨⟩, by rintro _ ⟨⟩⟩

/-! ### The Joint Unit -/

theorem LeftStirring.closedRanged {u : JointUnit} (hu : LeftStirring s u) (h : ClosedRanged s.ju) : ClosedRanged u := by
  unfold ClosedRanged
  rw [hu.closedList]
  exact h

theorem LeftStirring.bounded {u : JointUnit} (hu : LeftStirring s u) (h : JointsBounded s.ju) : JointsBounded u where
  openList e he := by
    obtain ⟨i, hi, hie⟩ := List.mem_iff_getElem.mp he
    have hl : i < s.ju.openList.length := hu.length ▸ hi
    obtain ⟨h1, h2, h3, h4⟩ := h.openList _ (List.getElem_mem hl)
    have hu' : u.openList[i]? = some e := by rw [List.getElem?_eq_getElem hi, hie]
    by_cases hp : Passed s s.ju.openList[i]
    · have := hu.passed i _ (List.getElem?_eq_getElem hl) hp
      obtain rfl := Option.some.inj (hu'.symm.trans this)
      exact ⟨h1, h2, Nat.zero_le _, h4⟩
    · have := hu.others i _ (List.getElem?_eq_getElem hl) hp
      obtain rfl := Option.some.inj (hu'.symm.trans this)
      exact ⟨h1, h2, h3, h4⟩
  awaited a ha := h.awaited a (hu.awaited ▸ ha)
  closed i hi := h.closed i (hu.closedList ▸ hi)

theorem releaseTest_kept (h : Kept full s) (hs : s.hs.state = .stirring) : Kept full (releaseTest s) := by
  obtain ⟨l, u, he, hl, hu⟩ := releaseTest_eq s hs
  rw [he]
  exact (h.withJu (hu.closedRanged h.ranged.closed) (fun f => hu.bounded (h.bounded f).joints)).withLine hl

theorem ageJoint_bounded {e : OpenJoint} (h : OpenBounded e) : OpenBounded (ageJoint e) := by
  unfold ageJoint
  split
  · exact ⟨h.1, h.2.1, countUp_le _, h.2.2.2⟩
  · exact h

theorem coolDown_bounded {a : AwaitedJoint} (h : AwaitedBounded a) : AwaitedBounded (coolDown a) := by
  obtain ⟨h1, h2, h3, h4, h5, h6⟩ := h
  unfold coolDown
  split
  · exact ⟨h1, h2, h3, h4, h5, (Nat.sub_le _ _).trans h6⟩
  · exact ⟨h1, h2, h3, h4, h5, h6⟩

theorem setJoints_hs (u : JointUnit) (s : State) : (setJoints u s).hs = s.hs :=
  setJoints_keeps u s .hs (by simp)

/-- R127: the Joint Unit's work at an expiry. -/
theorem jointExpiry_kept (h : Kept full s) : Kept full (jointExpiry s) := by
  have aged : Kept full (setJoints { s.ju with openList := s.ju.openList.map ageJoint } s) := by
    refine setJoints_kept h h.ranged.closed (fun f => { (h.bounded f).joints with openList := fun e he => ?_ })
    obtain ⟨e', he', rfl⟩ := List.mem_map.mp he
    exact ageJoint_bounded ((h.bounded f).joints.openList e' he')
  have cooled : ∀ {t : State}, Kept full t → Kept full (setJoints { t.ju with awaited := t.ju.awaited.map coolDown } t) := by
    intro t ht
    refine setJoints_kept ht ht.ranged.closed (fun f => { (ht.bounded f).joints with awaited := fun a ha => ?_ })
    obtain ⟨a', ha', rfl⟩ := Option.map_eq_some_iff.mp ha
    exact coolDown_bounded ((ht.bounded f).joints.awaited a' ha')
  refine cooled ?_
  split
  · next hs => exact releaseTest_kept aged hs
  · exact aged

theorem pushClosed_ranged {id : Nat} {ids : List Nat} (h : ids.Nodup) :
    (pushClosed id ids).length ≤ Config.jointCapacity ∧ (pushClosed id ids).Nodup := by
  unfold pushClosed
  refine ⟨by simp only [List.length_drop]; omega, (List.Nodup.append (h.filter _) (List.nodup_singleton id) ?_).sublist
    (List.drop_sublist _ _)⟩
  simp [List.disjoint_singleton]

theorem mem_pushClosed {id i : Nat} {ids : List Nat} (h : i ∈ pushClosed id ids) : i = id ∨ i ∈ ids := by
  have := List.mem_of_mem_drop h
  simp only [List.mem_append, List.mem_filter, List.mem_singleton] at this
  exact this.elim (fun hx => .inr hx.1) .inl

theorem jointsClosed_ranged (k : EndKind) {u : JointUnit} (h : ClosedRanged u) : ClosedRanged (jointsClosed k u) := by
  unfold ClosedRanged jointsClosed
  cases u.awaited with
  | none => exact h
  | some a => exact pushClosed_ranged h.2

theorem closeLead_bounded (k : EndKind) (u : JointUnit) {e : OpenJoint} (h : OpenBounded e) :
    OpenBounded (closeLead k u e) := by
  unfold closeLead
  split
  · split
    · exact ⟨h.1, h.2.1, Nat.zero_le _, h.2.2.2⟩
    · exact h
  · exact h

theorem jointsClosed_bounded (k : EndKind) {u : JointUnit} (h : JointsBounded u) : JointsBounded (jointsClosed k u) where
  openList e he := by
    obtain ⟨e', he', rfl⟩ := List.mem_map.mp he
    exact closeLead_bounded k u (h.openList e' he')
  awaited _ ha := nomatch ha
  closed i hi := by
    unfold jointsClosed at hi
    cases ha : u.awaited with
    | none => simp only [ha] at hi; exact h.closed i hi
    | some a =>
      simp only [ha] at hi
      rcases mem_pushClosed hi with rfl | hi
      · exact ⟨(h.awaited a ha).1, (h.awaited a ha).2.1⟩
      · exact h.closed i hi

theorem closeJoints_kept (h : Kept full s) (k : EndKind) : Kept full (closeJoints k s) :=
  raiseIf_kept (setJoints_kept h (jointsClosed_ranged k h.ranged.closed)
    (fun f => jointsClosed_bounded k (h.bounded f).joints)) _ _

theorem noJoints_bounded : JointsBounded {} :=
  ⟨by rintro _ ⟨⟩, by rintro _ ⟨⟩, by rintro _ ⟨⟩⟩

theorem noJoints_ranged : ClosedRanged {} := ⟨Nat.zero_le _, List.nodup_nil⟩

theorem emptyJoints_kept (h : Kept full s) : Kept full (emptyJoints s) :=
  setJoints_kept h noJoints_ranged (fun _ => noJoints_bounded)

theorem evaluateJoint_bounded (reports : List JointReport) {a : AwaitedJoint} (h : AwaitedBounded a) :
    AwaitedBounded (evaluateJoint reports a) := by
  obtain ⟨h1, h2, h3, h4, h5, h6⟩ := h
  refine ⟨h1, h2, h3, h4, h5, ?_⟩
  have key : ∀ rep st, (evaluateWith rep a.coolDwell st a.remaining).2 ≤ Config.countTop := by
    intro rep st
    unfold evaluateWith
    repeat' split
    all_goals grind
  exact key _ _

end Sys2Proof.Machine

namespace Sys2Proof.Machine

variable {full : Prop} {s : State}

/-! ### The Head Sequencer -/

theorem trimZero_bounds (limit : Nat) : -(limit : Int) ≤ 0 ∧ (0 : Int) ≤ limit := by omega

/-- A head that was not STIRRING enters a state other than HALTED, its trim 0 as it was. -/
theorem enterHead_kept (h : Kept full s) {x : HeadState} (hs : s.hs.state ≠ .stirring) (hx : x ≠ .halted) :
    Kept full (enterHead x s) := by
  obtain ⟨l, he, hl⟩ := enterHead_eq x s
  rw [he]
  exact (h.withHs (x := { s.hs with state := x, phase := 0 }) (fun _ => h.ranged.trim hs) (fun hh => absurd hh hx)
    (fun f => { (h.bounded f).head with phase := Nat.zero_le _ })).withLine hl

theorem enterRetracting_kept (h : Kept full s) : Kept full (enterRetracting s) := by
  obtain ⟨l, u, he, hl, hu⟩ := enterRetracting_eq s
  rw [he]
  have left := (withPhase_kept h (s.tg.phaseOpen && decide (s.hs.state ≠ .stirring))).withJu
    (hu.closedRanged h.ranged.closed) (fun f => hu.bounded (h.bounded f).joints)
  exact (left.withHs (x := { s.hs with state := .retracting, phase := 0, spindle := 0, trim := 0 }) (fun _ => rfl)
    (fun hh => nomatch hh) (fun f => { (h.bounded f).head with
      phase := Nat.zero_le _, spindle := .inl rfl, trim := trimZero_bounds _ })).withLine hl

/-- A normal retract is pending, or pending no longer. -/
theorem withRetractPending_kept (h : Kept full s) (b : Bool) : Kept full (s.withHs { s.hs with retractPending := b }) :=
  h.withHs h.ranged.trim (fun hh => h.ranged.enable (.inr hh)) (fun f => { (h.bounded f).head with })

theorem faultRetract_kept (h : Kept full s) : Kept full (faultRetract s) := by
  unfold faultRetract
  split
  · exact withRetractPending_kept (enterRetracting_kept h) false
  · exact h

theorem normalRetract_kept (h : Kept full s) : Kept full (normalRetract s) := by
  unfold normalRetract
  split
  · exact withRetractPending_kept h true
  · split
    · exact enterRetracting_kept h
    · exact h

theorem enterHalted_kept (h : Kept full s) : Kept full (enterHalted s) := by
  obtain ⟨l, he, hl⟩ := enterHalted_eq s
  rw [he]
  have off := h.withDp (x := { s.dp with enable := false }) (fun _ => rfl) (fun f => { (h.bounded f).port with })
  exact (off.withHs
    (x := { s.hs with state := .halted, phase := 0, spindle := 0, trim := 0, retractPending := false, weld := none })
    (fun _ => rfl) (fun _ => rfl) (fun f => { (h.bounded f).head with
      phase := Nat.zero_le _, spindle := .inl rfl, trim := trimZero_bounds _, weld := by rintro _ ⟨⟩ })).withLine hl

theorem enterParked_kept (h : Kept full s) (hs : s.hs.state ≠ .stirring) : Kept full (enterParked s) := by
  obtain ⟨l, he, hl⟩ := enterParked_eq s
  rw [he]
  exact (h.withHs (x := { s.hs with state := .parked, phase := 0, retractPending := false, weld := none })
    (fun _ => h.ranged.trim hs) (fun hh => nomatch hh)
    (fun f => { (h.bounded f).head with phase := Nat.zero_le _, weld := by rintro _ ⟨⟩ })).withLine hl

theorem enterStirring_kept (h : Kept full s) {w : WeldParams} (hw : s.hs.weld = some w) : Kept full (enterStirring w s) := by
  obtain ⟨l, he, hl⟩ := enterStirring_eq w s
  rw [he]
  have opened := h.withTg (x := { s.tg with phaseOpen := s.tg.target.isSome, stirCount := 0 }) h.ranged.travel
    (fun f => { (h.bounded f).travel with stir := Nat.zero_le _ })
  exact (opened.withHs (x := { s.hs with state := .stirring, phase := 0, trim := 0, zCommand := w.depth })
    (fun _ => rfl) (fun hh => nomatch hh) (fun f => { (h.bounded f).head with
      phase := Nat.zero_le _, trim := trimZero_bounds _
      zCommand := ((h.bounded f).head.weld w hw).depth.2 })).withLine hl

theorem enterHead_weld (x : HeadState) (s : State) : (enterHead x s).hs.weld = s.hs.weld := by
  obtain ⟨l, he, _⟩ := enterHead_eq x s
  rw [he]

theorem plungeDone_kept (h : Kept full s) {w : WeldParams} (hw : s.hs.weld = some w) (hs : s.hs.state ≠ .stirring) :
    Kept full (plungeDone w s) := by
  have dwelling := enterHead_kept h (x := .dwelling) hs (fun hx => nomatch hx)
  unfold plungeDone
  split
  · exact enterStirring_kept dwelling ((enterHead_weld _ s).trans hw)
  · exact dwelling

theorem spinUp_kept (h : Kept full s) {w : WeldParams} (hw : full → WeldBounded w) (hs : s.hs.state = .parked) :
    Kept full (spinUp w s) := by
  obtain ⟨l, he, hl⟩ := enterHead_eq .spinningUp s
  unfold spinUp
  rw [he]
  exact (h.withHs (x := { s.hs with state := .spinningUp, phase := 0, weld := some w, spindle := w.rpm, zCommand := 0 })
    (fun _ => h.ranged.trim (by simp [hs])) (fun hh => nomatch hh)
    (fun f => { (h.bounded f).head with
      phase := Nat.zero_le _, zCommand := Nat.zero_le _, spindle := .inr (hw f).rpm
      weld := by rintro _ ⟨⟩; exact hw f })).withLine hl

theorem continueWeld_kept (h : Kept full s) {rpm setpoint : Nat}
    (hr : full → (200 ≤ rpm ∧ rpm ≤ 3000) ∧ 100 ≤ setpoint ∧ setpoint ≤ Config.forceTop) (cont : Bool) :
    Kept full (continueWeld rpm setpoint cont s) := by
  unfold continueWeld
  split
  · next w _ hw =>
    refine h.withHs h.ranged.trim (fun hh => h.ranged.enable (.inr hh)) (fun f => ?_)
    have hb := (h.bounded f).head
    refine { hb with spindle := .inr (hr f).1, weld := ?_ }
    rintro _ ⟨⟩
    exact { hb.weld w hw with rpm := (hr f).1, setpoint := (hr f).2 }
  · exact h

theorem retractOnReport_kept (h : Kept full s) : Kept full (retractOnReport s) := by
  unfold retractOnReport
  split
  · exact enterRetracting_kept h
  · exact h

theorem headPathEnd_kept (h : Kept full s) : Kept full (headPathEnd s) := by
  unfold headPathEnd
  split
  · split
    · exact h
    · exact retractOnReport_kept h
  · exact retractOnReport_kept h

theorem trimmedDepth_le (depth : Nat) (trim : Int) : trimmedDepth depth trim ≤ Config.depthTop := by
  have := (clampInt_bounds (show (0 : Int) ≤ Config.depthTop by decide) ((depth : Int) + trim)).2
  unfold trimmedDepth
  omega

theorem forceStep_kept (h : Kept full s) (w : WeldParams) (hs : s.hs.state = .stirring) : Kept full (forceStep w s) := by
  refine raiseIf_kept (h.withHs ?_ ?_ (fun f => ?_)) _ _
  · exact fun hn => absurd hs hn
  · exact fun hh => h.ranged.enable (.inr hh)
  · exact { (h.bounded f).head with zCommand := trimmedDepth_le _ _, trim := clampInt_bounds (by omega) _ }

theorem headCounts_kept (h : Kept full s) : Kept full (headCounts s) :=
  h.withHs h.ranged.trim (fun hh => h.ranged.enable (.inr hh))
    (fun f => { (h.bounded f).head with phase := countUp_le _, forceAge := countUp_le _ })

/-- The Z command changes within its range. -/
theorem withZCommand_kept (h : Kept full s) {z : Nat} (hz : full → z ≤ Config.depthTop) :
    Kept full (s.withHs { s.hs with zCommand := z }) :=
  h.withHs h.ranged.trim (fun hh => h.ranged.enable (.inr hh)) (fun f => { (h.bounded f).head with zCommand := hz f })

theorem headRamps_kept (h : Kept full s) : Kept full (headRamps s) := by
  unfold headRamps
  split
  · next w _ hw =>
    exact withZCommand_kept h (fun f => (Nat.min_le_right _ _).trans ((h.bounded f).head.weld w hw).depth.2)
  · next w hs _ =>
    split
    · exact forceStep_kept h w hs
    · exact h
  · exact withZCommand_kept h (fun f => (Nat.sub_le _ _).trans (h.bounded f).head.zCommand)
  · exact h

theorem endDwell_kept (h : Kept full s) : Kept full (endDwell s) := by
  unfold endDwell
  split
  · next w hd =>
    refine enterStirring_kept h ?_
    unfold dwellDone at hd
    split at hd
    · next v _ hv =>
      split at hd
      · cases hd; exact hv
      · cases hd
    · cases hd
  · exact h

theorem startPendingRetract_kept (h : Kept full s) : Kept full (startPendingRetract s) := by
  unfold startPendingRetract
  split
  · exact enterRetracting_kept h
  · exact h

/-! ### Power-up values and the resets -/

theorem defaultConstants_inRange : Constants.inRange {} := by
  simp only [Constants.inRange, Config.railTop]
  decide

/-- A table as a reset leaves it holds the own rank alone, and seven ABSENT entries (R2, R19). -/
theorem freshTable_ranged (own : Rank) (stale : Nat) :
    TableRanged own stale { view := ownView own, entries := freshEntries own } where
  view := by revert own; decide
  ranks := by simp [freshEntries, allRanks, Function.comp_def]
  lawful e he := by
    obtain ⟨r, _, rfl⟩ := List.mem_map.mp he
    simp [NeighbourEntry.lawful]

theorem freshTable_bounded (own : Rank) : TableBounded { view := ownView own, entries := freshEntries own } := by
  intro e he c hc
  obtain ⟨r, _, rfl⟩ := List.mem_map.mp he
  cases hc

theorem freshExecutor_bounded : ExecutorBounded {} :=
  ⟨by decide, by decide, by decide, by rintro _ ⟨⟩, ⟨by decide, by decide, by decide⟩, by rintro _ ⟨⟩, by rintro ⟨⟩⟩

theorem lineCleared_ranged {l : PeerLine} (h : LineRanged l) : LineRanged (lineCleared l) :=
  ⟨(Nat.add_le_add_right (Nat.zero_le _) _).trans h.1, Nat.zero_le _⟩

/-- R167. -/
theorem lineResetEffect_kept (h : Kept full s) : Kept full (lineResetEffect s) := by
  refine noteChange_kept ⟨?_, fun f => ?_⟩
  · exact {
      memory := h.ranged.memory
      windows := h.ranged.windows
      constants := defaultConstants_inRange
      table := freshTable_ranged s.ownRank _
      travel := ⟨Nat.zero_le _, h.ranged.travel.2⟩
      trim := fun _ => rfl
      enable := fun _ => rfl
      line := lineCleared_ranged h.ranged.line
      closed := noJoints_ranged }
  · exact {
      travel := { travelCleared_bounded s.tg with }
      executor := freshExecutor_bounded
      notify := by rintro _ ⟨⟩
      head := { (h.bounded f).head with
        phase := Nat.zero_le _, spindle := .inl rfl, trim := trimZero_bounds _, weld := by rintro _ ⟨⟩ }
      joints := noJoints_bounded
      port := { (h.bounded f).port with }
      table := freshTable_bounded s.ownRank }

theorem heldResetEffect_kept (h : Kept full s) : Kept full (heldResetEffect s) := by
  unfold heldResetEffect
  split
  · exact lineResetEffect_kept h
  · exact h

theorem jobCleared_kept (h : Kept full s) : Kept full (jobCleared s) := by
  have h1 := emptyJoints_kept h
  have h2 := h1.withTg (x := travelCleared (emptyJoints s).tg) ⟨Nat.zero_le _, h1.ranged.travel.2⟩
    (fun _ => travelCleared_bounded _)
  have h3 := h2.withHs (x := { (emptyJoints s).hs with trim := 0, weld := none, retractPending := false }) (fun _ => rfl)
    (fun hh => h1.ranged.enable (.inr hh))
    (fun f => { (h1.bounded f).head with trim := trimZero_bounds _, weld := by rintro _ ⟨⟩ })
  exact h3.withDp (x := { (emptyJoints s).dp with lostReported := false, driveReported := false })
    h3.ranged.enable (fun f => { (h1.bounded f).port with })

/-- R120, R173: a retract from HALTED begins in a station that is configured. -/
theorem beginRetractFromHalted_kept (h : Kept full s) (hs : s.su.station ≠ .unconfigured) :
    Kept full (beginRetractFromHalted s) := by
  have h1 := enterRetracting_kept h
  have hsu : (enterRetracting s).su = s.su := enterRetracting_keeps s .su (by simp)
  have hst : (enterRetracting s).hs.state = .retracting := by
    obtain ⟨l, u, he, _, _⟩ := enterRetracting_eq s
    rw [he]
  refine h1.withDp (fun hu => ?_) (fun f => { (h1.bounded f).port with })
  rcases hu with hu | hu
  · exact absurd (hsu ▸ hu) hs
  · rw [hst] at hu; cases hu

end Sys2Proof.Machine

namespace Sys2Proof.Machine

variable {full : Prop} {s : State}

/-! ### The chain's end -/

/-- The executor's state, its other items apart. -/
theorem setExecutor_px (x : ExecutorState) (s : State) : (setExecutor x s).px = { s.px with state := x } := by
  obtain ⟨l, he, _⟩ := setExecutor_eq x s
  rw [he]

theorem setIndex_px (i : Nat) (s : State) : (setIndex i s).px = { s.px with index := i } := by
  obtain ⟨l, he, _⟩ := setIndex_eq i s
  rw [he]

theorem decideEnd_kept (h : Kept full s) (e : Decision) : Kept full (decideEnd e s) :=
  h.withPx (fun f => { (h.bounded f).executor with })

theorem fileSecondary_kept (h : Kept full s) (d : Detail) : Kept full (fileSecondary d s) := by
  unfold fileSecondary
  split
  · exact h.withPx (fun f => { (h.bounded f).executor with })
  · exact h

theorem positionReached_le (h : Ranged s) : positionReached s ≤ Config.railTop := by
  unfold positionReached
  split
  · next p hp => exact h.travel.2 p hp
  · exact Nat.le_of_lt_succ (Config.freePosition s.freeCount).isLt

theorem carried_endPos_le {r : PassRecord} (h : r.carried) : r.endPos ≤ Config.railTop := by
  obtain ⟨_, _, _, _, _, _, _, _, _, _, _, he, _⟩ := h
  exact Nat.le_of_lt_succ he

theorem remainingDistance_le (h : Ranged s) (hb : Bounded s) : remainingDistance s ≤ Config.railTop := by
  unfold remainingDistance
  split
  · next r hr =>
    split
    · exact distance_le (carried_endPos_le (hb.executor.record r hr)) (positionReached_le h)
    · exact Nat.zero_le _
  · exact Nat.zero_le _

/-- R91, R92, R95. -/
theorem endChain_kept (h : Kept full s) (e : Decision) : Kept full (endChain e s) := by
  have ended : Kept full (setCompletionPending true ((s.withPx { s.px with
      completion := completionOf e s, decided := none, secondary := none, firstRecord := false, record := none
      passed := false, leadPartner := none, trailPartner := none }).withFree (freeAfterPosition s))) := by
    refine setCompletionPending_kept (Kept.withFree (h.withPx (fun f => ?_)) _) true
    have hx := (h.bounded f).executor
    exact { hx with
      completion := ⟨hx.index, positionReached_le h.ranged, remainingDistance_le h.ranged (h.bounded f)⟩
      record := by rintro _ ⟨⟩
      held := by rintro _ _ ⟨⟩ }
  unfold endChain
  dsimp only
  split
  · exact lineResetEffect_kept ended
  · split
    · exact setStation_kept (setExecutor_kept_of_ne ended (by simp)) (by simp)
    · exact setStation_kept (setExecutor_kept_of_ne ended (by simp)) (by simp)

theorem closeStopping_kept (h : Kept full s) (e : Decision) : Kept full (closeStopping e s) :=
  endChain_kept (withdrawTarget_kept (closeJoints_kept h e.kind)) e

/-! ### The fetch -/

/-- R79. -/
theorem programCheck_kept (h : Kept full s) (d : Detail) : Kept full (programCheck d s) := by
  have raised : Kept full (raise .programCheck (s.withPx { s.px with passed := false })) := by
    refine raise_kept (h.withPx (fun f => ?_)) _
    exact { (h.bounded f).executor with }
  unfold programCheck
  dsimp only
  split
  · exact closeStopping_kept raised _
  · have waits := normalRetract_kept (setExecutor_kept_of_ne (x := .awaitHeadEnd)
      (decideEnd_kept (withdrawTarget_kept raised) ⟨.programCheck, some d⟩) (by simp))
    split
    · exact closeStopping_kept waits _
    · exact waits

theorem notifyFetch_kept (h : Kept full s) (r : PassRecord) : Kept full (notifyFetch r s) := by
  unfold notifyFetch
  split
  · have raised := raise_kept h .notify
    refine raised.withSu id (fun f i hi => ?_)
    cases hi
    exact (raised.bounded f).executor.index
  · exact h

theorem bitsOf_lt (n lo w : Nat) : bitsOf n lo w < 2 ^ w := Nat.mod_lt _ (Nat.two_pow_pos w)

/-- R56: a record read from its eight words fits them. -/
theorem readRecord_carried (m : List Host.Cell) (i : Nat) : (readRecord m i).carried :=
  ⟨bitsOf_lt _ _ 4, bitsOf_lt _ _ 8, bitsOf_lt _ _ 8, bitsOf_lt _ _ 8, bitsOf_lt _ _ 16, bitsOf_lt _ _ 16, bitsOf_lt _ _ 14,
    bitsOf_lt _ _ 12, bitsOf_lt _ _ 12, bitsOf_lt _ _ 12, bitsOf_lt _ _ 25, bitsOf_lt _ _ 25, bitsOf_lt _ _ 25,
    bitsOf_lt _ _ 25, bitsOf_lt _ _ 25⟩

theorem takeIndex_kept (h : Kept full s) {i : Nat} (hi : i ≤ 511) (hs : s.px.state ≠ .waitSlot) :
    Kept full (takeIndex i s) := by
  have moved := setIndex_kept h hi
  refine notifyFetch_kept (moved.withPx (fun f => ?_)) _
  have hx := (moved.bounded f).executor
  refine { hx with override := ?_, pendingOverride := by rintro _ ⟨⟩, record := ?_, held := fun hw => ?_ }
  · show 50 ≤ (setIndex i s).px.pendingOverride.getD _ ∧ (setIndex i s).px.pendingOverride.getD _ ≤ 120
    cases hp : (setIndex i s).px.pendingOverride with
    | none => exact hx.override
    | some y => exact hx.pendingOverride y hp
  · rintro _ ⟨⟩
    exact readRecord_carried _ _
  · exact absurd (show s.px.state = .waitSlot by simpa [setIndex_px] using hw) hs

/-- R75. -/
theorem beginFetch_kept (h : Kept full s) (role : Role) (i : Nat) : Kept full (beginFetch role i s) := by
  have fetching : Kept full (setExecutor .fetching (s.withPx { s.px with role := role, decided := none })) := by
    refine setExecutor_kept_of_ne (h.withPx (fun f => ?_)) (by simp)
    exact { (h.bounded f).executor with }
  unfold beginFetch
  dsimp only
  split
  · refine programCheck_kept (fetching.withPx (fun f => ?_)) _
    exact { (fetching.bounded f).executor with record := by rintro _ ⟨⟩, held := by rintro _ _ ⟨⟩ }
  · next hi =>
    exact takeIndex_kept fetching (by simp only [Config.recordCount] at hi; omega) (by simp [setExecutor_px])

/-! ### Record start -/

/-- What the fetch checks leave true of a record that may start (R77, R78). -/
structure StartSound (s : State) (r : PassRecord) : Prop where
  fields : ∀ k, r.kind = some k → FieldsInRange s.px.role k r
  held : r.kind = some .weld → s.px.role = .fresh → HeldSound r
  continued : r.kind = some .weld → s.px.role = .continuation → r.trailId ≠ 0 → s.tg.dir = .down →
    r.entryX + r.standoff ≤ Config.railTop

/-- R64: the release point of a record that has passed its checks is on the rail. -/
theorem HeldSound.releasePoint_le {r : PassRecord} (h : HeldSound r) (held : Direction) (hl : r.leadId ≠ 0) :
    releasePoint (weldDirection .fresh held r) r.start r.release ≤ Config.railTop := by
  obtain ⟨⟨he, _, _, _, _, _, _, _, _, hf⟩, hne, hrel, _⟩ := h
  have hs := (hf rfl).1
  have hd := hrel hl
  simp only [weldDirection, directionTo, distance, Config.railTop] at *
  split
  · simp only [releasePoint]; omega
  · split <;> simp only [releasePoint] <;> omega

/-- R65: so is its hold point. -/
theorem HeldSound.holdPoint_le {r : PassRecord} (h : HeldSound r) (held : Direction) (ht : r.trailId ≠ 0) :
    holdPoint (weldDirection .fresh held r) r.entryX r.standoff ≤ Config.railTop := by
  obtain ⟨⟨_, _, _, _, _, _, _, _, htr, hf⟩, hne, _, hhold⟩ := h
  have hs := (hf rfl).1
  obtain ⟨_, hx, _, _⟩ := htr ht
  have hd := hhold ht
  simp only [weldDirection, directionTo, Config.railTop] at *
  split
  · simp only [holdPoint]; omega
  · split
    · have := hd ‹_›; simp only [holdPoint]; omega
    · omega

theorem openJoint_bounded {u : JointUnit} (h : JointsBounded u) {id release : Nat} (hid : id ≠ 0) (hid' : id ≤ 255)
    (hr : release ≤ Config.railTop) (q : Rank) : JointsBounded (openJoint id q release u) where
  openList e he := by
    rcases List.mem_append.mp he with he | he
    · exact h.openList e he
    · obtain rfl := List.mem_singleton.mp he
      exact ⟨Nat.pos_of_ne_zero hid, hid', Nat.zero_le _, hr⟩
  awaited := h.awaited
  closed := h.closed

theorem awaitJoint_bounded {u : JointUnit} (h : JointsBounded u) {id x hold cool : Nat} (hid : id ≠ 0) (hid' : id ≤ 255)
    (hx : x ≤ Config.railTop) (hh : hold ≤ Config.railTop) (hc : cool ≤ Config.countTop) (q : Rank)
    (reports : List JointReport) : JointsBounded (awaitJoint id q x hold cool reports u) where
  openList := h.openList
  awaited := by
    rintro _ ⟨⟩
    exact evaluateJoint_bounded _ ⟨Nat.pos_of_ne_zero hid, hid', hx, hh, hc, Nat.zero_le _⟩
  closed := h.closed

/-- The joint parts of a record that starts: the lead part is read in a fresh record alone. -/
theorem startJoints_kept (h : Kept full s) {r : PassRecord} {d : Direction}
    (lead : full → s.px.role = .fresh → r.leadId ≠ 0 → r.leadId ≤ 255 ∧ releasePoint d r.start r.release ≤ Config.railTop)
    (trail : full → r.trailId ≠ 0 → r.trailId ≤ 255 ∧ r.entryX ≤ Config.railTop
      ∧ holdPoint d r.entryX r.standoff ≤ Config.railTop ∧ r.coolDwell ≤ Config.countTop) :
    Kept full (startJoints r d s) := by
  unfold startJoints
  extract_lets u v
  have hu : ClosedRanged u ∧ (full → JointsBounded u) := by
    unfold u
    split
    · next hrole _ =>
      split
      · exact ⟨h.ranged.closed, fun f => (h.bounded f).joints⟩
      · next hl =>
        exact ⟨h.ranged.closed, fun f => openJoint_bounded (h.bounded f).joints hl (lead f hrole hl).1
          (lead f hrole hl).2 _⟩
    · exact ⟨h.ranged.closed, fun f => (h.bounded f).joints⟩
  have hv : ClosedRanged v ∧ (full → JointsBounded v) := by
    unfold v
    split
    · split
      · exact hu
      · next ht =>
        refine ⟨hu.1, fun f => ?_⟩
        obtain ⟨h1, h2, h3, h4⟩ := trail f ht
        exact awaitJoint_bounded (hu.2 f) ht h1 h2 h3 h4 _ _
    · exact hu
  exact setJoints_kept h hv.1 hv.2

theorem clampOpen_kept (h : Kept full s) : Kept full (clampOpen s) := closeStopping_kept (raise_kept h _) _

theorem startJoints_hs (r : PassRecord) (d : Direction) (s : State) : (startJoints r d s).hs = s.hs :=
  startJoints_keeps r d s .hs (by simp)

/-- R81: a fresh WELD. -/
theorem startFreshWeld_kept (h : Kept full s) {r : PassRecord} (hr : full → HeldSound r) :
    Kept full (startFreshWeld r s) := by
  have given := giveTarget_kept h (t := ⟨.weld, r.endPos, r.rate⟩)
    (fun f => by obtain ⟨⟨he, _, hrate, _⟩, _⟩ := hr f; exact ⟨he, by dsimp only; omega⟩)
    (travelDirection r.endPos s) false
  have joined := startJoints_kept given (r := r) (d := weldDirection .fresh s.tg.dir r)
    (fun f _ hl => by
      obtain ⟨_, _, _, _, _, _, _, hlead, _⟩ := (hr f).1
      exact ⟨(hlead hl).1, (hr f).releasePoint_le _ hl⟩)
    (fun f ht => by
      obtain ⟨_, _, _, _, _, _, _, _, htr, _⟩ := (hr f).1
      obtain ⟨h1, h2, _, h4⟩ := htr ht
      exact ⟨h1, h2, (hr f).holdPoint_le _ ht, h4⟩)
  unfold startFreshWeld
  dsimp only
  split
  · next ht =>
    refine spinUp_kept joined (fun f => ?_) ?_
    · obtain ⟨⟨_, _, _, h1, h2, h3, h4, _, _, hf⟩, _⟩ := hr f
      obtain ⟨_, h5, h6, h7, h8, h9⟩ := hf rfl
      exact ⟨⟨h1, h2⟩, ⟨h5, h6⟩, ⟨h7, h8⟩, h9, h3, h4⟩
    · simp only [weldTaken, Bool.and_eq_true, beq_iff_eq] at ht
      exact ht.1.1.1
  · split
    · exact clampOpen_kept joined
    · exact joined

/-- R81, R102: a continuation. -/
theorem startContinuation_kept (h : Kept full s) {r : PassRecord} (hs : s.px.role = .continuation)
    (hf : full → FieldsInRange .continuation .weld r)
    (hh : full → r.trailId ≠ 0 → s.tg.dir = .down → r.entryX + r.standoff ≤ Config.railTop) :
    Kept full (startContinuation r s) := by
  have given := giveTarget_kept h (t := ⟨.weld, r.endPos, r.rate⟩)
    (fun f => by obtain ⟨he, _, hrate, _⟩ := hf f; exact ⟨he, by dsimp only; omega⟩) s.tg.dir true
  have joined := startJoints_kept given (r := r) (d := s.tg.dir)
    (fun _ hfresh => by rw [show (giveTarget _ _ _ s).px.role = s.px.role from rfl, hs] at hfresh; cases hfresh)
    (fun f ht => by
      obtain ⟨_, _, _, _, _, _, _, _, htr, _⟩ := hf f
      obtain ⟨h1, h2, _, h4⟩ := htr ht
      refine ⟨h1, h2, ?_, h4⟩
      cases hd : s.tg.dir with
      | up => exact (Nat.sub_le _ _).trans h2
      | down => exact hh f ht hd)
  exact continueWeld_kept joined
    (fun f => by obtain ⟨_, _, _, h1, h2, h3, h4, _⟩ := hf f; exact ⟨⟨h1, h2⟩, h3, h4⟩) _

theorem startTravel_kept (h : Kept full s) {k : TravelKind} {r : PassRecord}
    (hr : full → r.endPos ≤ Config.railTop ∧ r.rate ≤ 2000) : Kept full (startTravel k r s) :=
  giveTarget_kept h hr _ _

theorem startPause_kept (h : Kept full s) {r : PassRecord} (hr : full → r.rate ≤ 65535) : Kept full (startPause r s) := by
  have zeroed := h.withTg (x := { s.tg with stallCount := 0 }) h.ranged.travel
    (fun f => { (h.bounded f).travel with stall := Nat.zero_le _ })
  exact zeroed.withPx (x := { s.px with pauseCount := r.rate }) (fun f => { (h.bounded f).executor with pauseCount := hr f })

/-- R81. -/
theorem handRecordOn_kept (h : Kept full s) {r : PassRecord} (hr : full → StartSound s r) :
    Kept full (handRecordOn r s) := by
  have active := setExecutor_kept_of_ne h (x := .active) (by simp)
  have hrole : (setExecutor .active s).px.role = s.px.role := by rw [setExecutor_px]
  have htg : (setExecutor .active s).tg = s.tg := setExecutor_keeps .active s .tg (by simp)
  unfold handRecordOn
  dsimp only
  split
  · exact closeStopping_kept h _
  · split
    · next hk => exact startTravel_kept active (fun f => by obtain ⟨h1, _, h2⟩ := (hr f).fields _ hk; exact ⟨h1, h2⟩)
    · next hk =>
      exact startTravel_kept active (fun f => by obtain ⟨_, h1, _, h2⟩ := (hr f).fields _ hk; exact ⟨h1, by omega⟩)
    · next hk => exact startPause_kept active (fun f => ((hr f).fields _ hk).2)
    · next hk =>
      split
      · next hfresh => exact startFreshWeld_kept active (fun f => (hr f).held hk (hrole ▸ hfresh))
      · next hcont =>
        refine startContinuation_kept active hcont (fun f => ?_) (fun f => ?_)
        · have := (hr f).fields _ hk
          rwa [← hrole, hcont] at this
        · rw [htg]
          exact (hr f).continued hk (hrole ▸ hcont)
    · exact active

/-- R82: a record that must wait is a fresh WELD. -/
theorem startRecord_kept (h : Kept full s) {r : PassRecord} (hr : full → StartSound s r) (hin : s.px.record = some r) :
    Kept full (startRecord r s) := by
  unfold startRecord
  split
  · next hw =>
    simp only [mustWait, Bool.and_eq_true, beq_iff_eq] at hw
    refine setExecutor_kept h (fun f _ x hx => ?_)
    obtain rfl := Option.some.inj (hin.symm.trans hx)
    exact (hr f).held hw.1.1.1 hw.1.1.2
  · exact handRecordOn_kept h hr

theorem firstFailure_eq_none {l : List (Bool × Detail)} (h : firstFailure l = none) : ∀ x ∈ l, x.1 = false := by
  induction l with
  | nil => rintro _ ⟨⟩
  | cons x l ih =>
    obtain ⟨bad, d⟩ := x
    cases bad with
    | true => cases h
    | false =>
      intro y hy
      rcases List.mem_cons.mp hy with rfl | hy
      · rfl
      · exact ih h y hy

/-- R77, R78: what a WELD that passes leaves true: the checks 2, 4 and 8. -/
theorem weld_of_judgeAt {r : PassRecord} {p : Nat} (h : judgeAt s .weld r p = none) :
    FieldsInRange s.px.role .weld r ∧ (s.px.role = .fresh → r.endPos ≠ r.start)
      ∧ leadGeometryBad s.px.role r = false
      ∧ trailGeometryBad (weldDirection s.px.role s.tg.dir r) (if s.px.role = .fresh then r.start else p) r = false := by
  have hall := firstFailure_eq_none h
  have hfields := hall (!fieldsOk s.px.role .weld r, .fieldRange) (by simp)
  have hzero := hall ((hasStart s.px.role .weld && r.endPos == r.start)
    || (s.px.role == .continuation && RecordKind.weld == .weld && r.endPos == p), .zeroLength) (by simp)
  have hgeo := hall (RecordKind.weld == .weld && (leadGeometryBad s.px.role r
    || trailGeometryBad (weldDirection s.px.role s.tg.dir r) (if s.px.role == .fresh then r.start else p) r),
      .jointGeometry) (by simp)
  simp only [Bool.not_eq_false', Bool.or_eq_false_iff, Bool.and_eq_false_iff, beq_self_eq_true, Bool.true_and,
    beq_iff_eq, beq_eq_false_iff_ne] at hfields hzero hgeo
  refine ⟨(fieldsOk_iff _ _ _).mp hfields, fun hf => ?_, hgeo.1, hgeo.2⟩
  exact hzero.1.resolve_left (by simp [hasStart, hf])

/-- R77, R78: a record that passes its checks may start. -/
theorem startSound_of_judgeRecord {k : RecordKind} {r : PassRecord} (h : Ranged s) (hk : r.kind = some k)
    (hj : judgeRecord s k r = none) : StartSound s r := by
  have fields : FieldsInRange s.px.role k r := by
    unfold judgeRecord at hj
    have hf : (!fieldsOk s.px.role k r) = false := by
      split at hj
      · exact firstFailure_eq_none hj (!fieldsOk s.px.role k r, .fieldRange) (by simp)
      · exact firstFailure_eq_none hj (!fieldsOk s.px.role k r, .fieldRange) (by simp)
    exact (fieldsOk_iff _ _ _).mp (by simpa using hf)
  have judged : r.kind = some .weld → ∃ p, s.tg.p = some p ∧ judgeAt s .weld r p = none := by
    intro hw
    obtain rfl := Option.some.inj (hk.symm.trans hw)
    unfold judgeRecord at hj
    cases hp : s.tg.p with
    | none =>
      rw [hp] at hj
      exact absurd (firstFailure_eq_none hj (travels .weld, .startMismatch) (by simp)) (by decide)
    | some p =>
      rw [hp] at hj
      exact ⟨p, rfl, hj⟩
  refine ⟨fun k' hk' => ?_, fun hw hrole => ?_, fun hw hrole ht hd => ?_⟩
  · obtain rfl := Option.some.inj (hk.symm.trans hk')
    exact fields
  · obtain ⟨p, _, hjp⟩ := judged hw
    obtain ⟨h1, h2, h3, h4⟩ := weld_of_judgeAt hjp
    rw [hrole] at h1 h3 h4
    refine ⟨h1, h2 hrole, fun hl => ?_, fun ht hlt => ?_⟩
    · simpa [leadGeometryBad, hl] using h3
    · have hdir : weldDirection .fresh s.tg.dir r = .down := by
        simp only [weldDirection, directionTo]; rw [if_neg (by omega), if_pos hlt]
      rw [hdir] at h4
      simp [trailGeometryBad, ht] at h4
      exact h4.2
  · obtain ⟨p, hp, hjp⟩ := judged hw
    obtain ⟨_, _, _, h4⟩ := weld_of_judgeAt hjp
    have hpr := h.travel.2 p hp
    simp [trailGeometryBad, ht, hrole, weldDirection, hd] at h4
    exact h4.2.trans hpr

theorem recordPasses_kept (h : Kept full s) (k : RecordKind) (r : PassRecord) : Kept full (recordPasses k r s) :=
  h.withPx (fun f => { (h.bounded f).executor with })

theorem judgeAndStart_kept (h : Kept full s) {k : RecordKind} {r : PassRecord} (hk : r.kind = some k)
    (hin : s.px.record = some r) : Kept full (judgeAndStart k r s) := by
  unfold judgeAndStart
  split
  · exact programCheck_kept h _
  · next hj =>
    have hs := startSound_of_judgeRecord h.ranged hk hj
    exact startRecord_kept (recordPasses_kept h k r) (fun _ => ⟨hs.fields, hs.held, hs.continued⟩) hin

theorem notifyFetch_px (r : PassRecord) (s : State) : (notifyFetch r s).px = s.px :=
  notifyFetch_keeps r s .px (by simp)

theorem followBranch_kept (h : Kept full s) {r : PassRecord} (hs : s.px.state ≠ .waitSlot) : Kept full (followBranch r s) := by
  unfold followBranch
  dsimp only
  split
  · exact programCheck_kept h _
  · next hr =>
    have moved := setIndex_kept h (show r.rate ≤ 511 by omega)
    have read : Kept full (notifyFetch (readRecord (setIndex r.rate s).pm r.rate) ((setIndex r.rate s).withPx
        { (setIndex r.rate s).px with record := some (readRecord (setIndex r.rate s).pm r.rate) })) := by
      refine notifyFetch_kept (moved.withPx (fun f => ?_)) _
      refine { (moved.bounded f).executor with record := ?_, held := fun hw => ?_ }
      · rintro _ ⟨⟩
        exact readRecord_carried _ _
      · exact absurd (show s.px.state = .waitSlot by simpa [setIndex_px] using hw) hs
    split
    · exact programCheck_kept read _
    · exact programCheck_kept read _
    · next hk => exact judgeAndStart_kept read hk (by rw [notifyFetch_px]; rfl)

theorem completeFetch_kept (h : Kept full s) (hs : s.px.state ≠ .waitSlot) : Kept full (completeFetch s) := by
  have later : Kept full (s.withPx { s.px with firstRecord := false }) :=
    h.withPx (fun f => { (h.bounded f).executor with })
  unfold completeFetch
  dsimp only
  split
  · exact programCheck_kept later _
  · next hr =>
    split
    · exact programCheck_kept later _
    · split
      · exact programCheck_kept later _
      · exact followBranch_kept later hs
    · next hk => exact judgeAndStart_kept later hk hr

/-! ### The close of a record, reports and causes -/

theorem closeRecord_kept (h : Kept full s) : Kept full (closeRecord s) := by
  unfold closeRecord
  split
  · exact h
  · next e _ =>
    split
    · exact closeStopping_kept h _
    · have closed := withdrawTarget_kept (closeJoints_kept h e.kind)
      refine beginFetch_kept (closed.withPx (fun f => ?_)) _ _
      exact { (h.bounded f).executor with }

theorem closeIfRest_kept (h : Kept full s) : Kept full (closeIfRest s) := by
  unfold closeIfRest
  split
  · exact closeRecord_kept h
  · exact h

theorem awaitEnd_kept (h : Kept full s) (e : Decision) : Kept full (awaitEnd e s) :=
  closeIfRest_kept (setExecutor_kept_of_ne (decideEnd_kept h e) (by simp))

theorem executorPathEnd_kept (h : Kept full s) : Kept full (executorPathEnd s) := by
  have decided := decideEnd_kept h ⟨.complete, none⟩
  unfold executorPathEnd
  dsimp only
  split
  · split
    · exact closeRecord_kept decided
    · exact closeIfRest_kept (setExecutor_kept_of_ne decided (by simp))
  · exact h

theorem executorShortEnd_kept (h : Kept full s) (e : Decision) : Kept full (executorShortEnd e s) := by
  unfold executorShortEnd
  split
  · exact awaitEnd_kept h e
  · exact h

theorem stoppingCause_kept (h : Kept full s) (e : Decision) (d : Detail) : Kept full (stoppingCause e d s) := by
  have retracts := faultRetract_kept (withdrawTarget_kept h)
  unfold stoppingCause
  dsimp only
  split
  · exact h
  · exact h
  · exact closeStopping_kept h e
  · split
    · exact closeStopping_kept h e
    · exact awaitEnd_kept retracts e
  · exact awaitEnd_kept retracts e
  · split
    · exact fileSecondary_kept retracts d
    · exact decideEnd_kept retracts e
  · exact fileSecondary_kept retracts d

theorem faultCause_kept (h : Kept full s) (d : Detail) : Kept full (faultCause d s) :=
  stoppingCause_kept (raise_kept h _) _ _

theorem headFault_kept (h : Kept full s) (d : Detail) : Kept full (headFault d s) :=
  faultCause_kept (faultRetract_kept h) d

theorem conflictStop_kept (h : Kept full s) (d : Detail) : Kept full (conflictStop d s) := by
  unfold conflictStop
  dsimp only
  split
  · split
    · exact immediateStop_kept h
    · exact stoppingCause_kept (immediateStop_kept h) _ _
  · exact h

theorem checkRankConflict_kept (h : Kept full s) : Kept full (checkRankConflict s) := by
  unfold checkRankConflict
  split
  · exact conflictStop_kept (raise_kept h _) _
  · exact h

theorem estopCause_kept (h : Kept full s) : Kept full (estopCause s) := by
  unfold estopCause
  split
  · exact h
  · exact h
  · split
    · split
      · exact closeStopping_kept h _
      · exact closeStopping_kept (fileSecondary_kept h _) _
    · exact closeStopping_kept h _
  · exact closeStopping_kept h _

theorem retractTimeoutCause_kept (h : Kept full s) : Kept full (retractTimeoutCause s) := by
  have raised := raise_kept h .fault
  unfold retractTimeoutCause
  dsimp only
  split
  · exact raised
  · exact raised
  · split
    · split
      · exact closeStopping_kept raised _
      · exact closeStopping_kept (fileSecondary_kept raised _) _
    · exact closeStopping_kept raised _

theorem retractTimesOut_kept (h : Kept full s) : Kept full (retractTimesOut s) :=
  heldResetEffect_kept (retractTimeoutCause_kept (immediateStop_kept (enterHalted_kept h)))

theorem headEnd_kept (h : Kept full s) : Kept full (headEnd s) := by
  unfold headEnd
  split
  · exact closeIfRest_kept h
  · split
    · exact lineResetEffect_kept h
    · split
      · exact setStation_kept (setExecutor_kept_of_ne h (by simp)) (by simp)
      · exact h

theorem haltTaken_kept (h : Kept full s) : Kept full (haltTaken s) := by
  have halting : Kept full (closeIfRest (setExecutor .halting (decideEnd ⟨.halted, none⟩
      (normalRetract (withdrawTarget s))))) :=
    closeIfRest_kept (setExecutor_kept_of_ne (decideEnd_kept (normalRetract_kept (withdrawTarget_kept h)) _)
      (by simp))
  unfold haltTaken
  dsimp only
  split
  · exact h
  · exact h
  · exact h
  · exact closeStopping_kept h _
  · split
    · exact closeStopping_kept h _
    · exact halting
  · exact halting
  · split
    · exact h
    · exact setExecutor_kept_of_ne (decideEnd_kept h _) (by simp)

theorem pauseCounts_kept (h : Kept full s) : Kept full (pauseCounts s) := by
  have counted : Kept full (s.withPx { s.px with pauseCount := s.px.pauseCount - 1 }) :=
    h.withPx (fun f => { (h.bounded f).executor with
      pauseCount := (Nat.sub_le _ _).trans (h.bounded f).executor.pauseCount })
  unfold pauseCounts
  dsimp only
  split
  · exact closeRecord_kept (decideEnd_kept counted _)
  · exact counted

theorem executorCloses_kept (h : Kept full s) : Kept full (executorCloses s) := by
  unfold executorCloses
  split
  · exact closeIfRest_kept h
  · split
    · next hs => exact completeFetch_kept h (by rw [hs]; exact fun hx => nomatch hx)
    · exact h

theorem executorTurn_kept (h : Kept full s) : Kept full (executorTurn s) := by
  unfold executorTurn
  split
  · exact pauseCounts_kept h
  · exact executorCloses_kept h

end Sys2Proof.Machine

namespace Sys2Proof.Machine

variable {full : Prop} {s : State}

/-! ### The Neighbour Table -/

theorem ageEntry_lawful {stale : Nat} (hs : stale < Config.countTop) {e : NeighbourEntry} (h : e.lawful stale) :
    (ageEntry stale e).lawful stale := by
  obtain ⟨h1, _, _, h4⟩ := h
  have hc : stale < e.age → stale < countUp e.age := by unfold countUp; omega
  unfold NeighbourEntry.lawful ageEntry
  dsimp only
  split
  · next hl => exact ⟨by simp [← h1, hl.1], countUp_le _, by simp, fun _ => hl.2⟩
  · next hl => exact ⟨h1, countUp_le _, fun hx => Nat.le_of_not_lt (fun hlt => hl ⟨hx, hlt⟩), fun hx => hc (h4 hx)⟩

theorem ageTable_kept (h : Kept full s) : Kept full (ageTable s) := by
  have hs : s.constants.staleLimit < Config.countTop := by
    obtain ⟨_, _, _, _, ⟨_, h2⟩, _⟩ := h.ranged.constants
    simp only [Config.countTop]
    omega
  refine raiseIf_kept (h.withNt ?_ (fun f e he c hc => ?_)) _ _
  · have ht := h.ranged.table
    refine ⟨ht.view, ?_, fun e he => ?_⟩
    · rw [← ht.ranks, List.map_map]; rfl
    · obtain ⟨e', he', rfl⟩ := List.mem_map.mp he
      exact ageEntry_lawful hs (ht.lawful e' he')
  · obtain ⟨e', he', rfl⟩ := List.mem_map.mp he
    exact (h.bounded f).table e' he' c hc

theorem inView_or (v w : BitVec 8) (r : Rank) : inView (v ||| w) r = (inView v r || inView w r) := BitVec.getLsbD_or

theorem inView_single (q r : Rank) : inView (1#8 <<< q.val) r = decide (r = q) := by revert q r; decide

theorem inView_ownView (own r : Rank) : inView (ownView own) r = decide (r = own) := inView_single own r

theorem fileEntry_rank (r : Rank) (c : BeaconContent) (e : NeighbourEntry) : (fileEntry r c e).rank = e.rank := by
  unfold fileEntry; split <;> rfl

theorem fileBeacon_kept (h : Kept full s) (r : Rank) {c : BeaconContent} (hc : full → ContentBounded c) :
    Kept full (fileBeacon r c s) := by
  have ht := h.ranged.table
  refine raiseIf_kept (h.withNt ⟨?_, ?_, fun e he => ?_⟩ (fun f e he c' hc' => ?_)) _ _
  · rw [inView_or, ht.view, Bool.true_or]
  · rw [← ht.ranks, List.map_map]
    exact List.map_congr_left (fun e _ => fileEntry_rank r c e)
  · obtain ⟨e', he', rfl⟩ := List.mem_map.mp he
    unfold fileEntry
    split
    · simp [NeighbourEntry.lawful]
    · exact ht.lawful e' he'
  · obtain ⟨e', he', rfl⟩ := List.mem_map.mp he
    unfold fileEntry at hc'
    split at hc'
    · cases hc'; exact hc f
    · exact (h.bounded f).table e' he' c' hc'

theorem length_openFields (n : Nat) (bs : List Byte) : (openFields n bs).length = n := by
  induction n generalizing bs with
  | zero => rfl
  | succ n ih => simp [openFields, ih]

/-- R5: what a beacon's payload has to say to be filed. -/
theorem contentBounded_of_wellFormed {bs : List Byte} (h : (beaconFields bs).wellFormed = true) :
    ContentBounded (beaconFields bs).content := by
  simp only [BeaconFields.wellFormed, Bool.and_eq_true, decide_eq_true_eq] at h
  obtain ⟨⟨⟨⟨⟨⟨⟨⟨⟨⟨⟨⟨⟨_, _⟩, _⟩, _⟩, _⟩, hpos⟩, hspeed⟩, _⟩, hopen⟩, hclosed⟩, _⟩, _⟩, _⟩, _⟩ := h
  refine ⟨hspeed, fun p hp => ?_, ?_, ?_⟩
  · simp only [BeaconFields.content] at hp
    split at hp
    · next hb => cases hp; simpa [hb] using hpos
    · cases hp
  · refine (List.length_filterMap_le _ _).trans ?_
    simp only [beaconFields, length_openFields]
    exact hopen
  · simp only [BeaconFields.content, beaconFields, List.length_map, List.length_take]
    exact (Nat.min_le_left _ _).trans hclosed

theorem filingEvaluates_bounded (r : Rank) (reports : List JointReport) {u : JointUnit} (h : JointsBounded u) :
    JointsBounded (filingEvaluates r reports u) where
  openList := h.openList
  awaited a ha := by
    obtain ⟨a', ha', rfl⟩ := Option.map_eq_some_iff.mp ha
    split
    · exact evaluateJoint_bounded _ (h.awaited a' ha')
    · exact h.awaited a' ha'
  closed := h.closed

theorem removeJoints_bounded (r : Rank) (closed : List Nat) {u : JointUnit} (h : JointsBounded u) :
    JointsBounded (removeJoints r closed u) :=
  { h with openList := fun e he => h.openList e (List.mem_of_mem_filter he) }

/-- R82: the record held in WAIT_SLOT is a fresh WELD. -/
def HeldFits (s : State) : Prop :=
  s.px.state = .waitSlot → s.px.role = .fresh ∧ ∀ r, s.px.record = some r → r.kind = some .weld

theorem Disciplined.heldFits (h : Disciplined s) : HeldFits s := by
  intro hs
  have hr := h.record
  simp only [RecordFits, hs] at hr
  obtain ⟨r, hr, hk, hrole, _⟩ := hr
  refine ⟨hrole, fun x hx => ?_⟩
  obtain rfl := Option.some.inj (hr.symm.trans hx)
  exact hk

theorem startHeld_kept (h : Kept full s) (hf : full → HeldFits s) : Kept full (startHeld s) := by
  unfold startHeld
  split
  · next r hs hr =>
    refine startRecord_kept h (fun f => ?_) hr
    obtain ⟨hrole, hk⟩ := hf f hs
    have hheld := (h.bounded f).executor.held hs r hr
    refine ⟨fun k hk' => ?_, fun _ _ => hheld, fun _ hc => ?_⟩
    · obtain rfl := Option.some.inj ((hk r hr).symm.trans hk')
      rw [hrole]
      exact hheld.1
    · rw [hrole] at hc; cases hc
  · exact h

theorem heldFits_of_px {t : State} (h : HeldFits s) (hpx : t.px = s.px) : HeldFits t := by
  unfold HeldFits at *
  rw [hpx]
  exact h

theorem jointsFiled_kept (h : Kept full s) (hf : full → HeldFits s) (r : Rank) (c : BeaconContent) :
    Kept full (jointsFiled r c s) := by
  have filed := setJoints_kept h (x := filingEvaluates r c.openList (removeJoints r c.closedList s.ju)) h.ranged.closed
    (fun f => filingEvaluates_bounded r _ (removeJoints_bounded r _ (h.bounded f).joints))
  unfold jointsFiled
  dsimp only
  split
  · exact startHeld_kept filed (fun f => heldFits_of_px (hf f) (setJoints_keeps _ s .px (by simp)))
  · exact filed

theorem neighbourBeacon_kept (h : Kept full s) (hf : full → HeldFits s) (r : Rank) {c : BeaconContent}
    (hc : full → ContentBounded c) : Kept full (neighbourBeacon r c s) := by
  have filed := jointsFiled_kept (fileBeacon_kept h r hc)
    (fun f => heldFits_of_px (hf f) (fileBeacon_keeps r c s .px (by simp))) r c
  unfold neighbourBeacon
  dsimp only
  split
  · exact checkRankConflict_kept filed
  · exact filed

theorem beaconTaken_kept (h : Kept full s) (hf : full → HeldFits s) (f : ReceivedFrame) : Kept full (beaconTaken f s) := by
  unfold beaconTaken
  dsimp only
  split
  · next hw =>
    split
    · exact conflictStop_kept (raise_kept h _) _
    · exact neighbourBeacon_kept h hf _ (fun _ => contentBounded_of_wellFormed hw)
  · exact h

/-! ### The station's commands -/

/-- R162: every constant comes into its range, the rail limits into order where SETUP is not ignored. -/
theorem clampConstants_inRange {c : Constants} (h : (clampConstants c).railMin < (clampConstants c).railMax) :
    (clampConstants c).inRange := by
  simp only [clampConstants, clampNat, Constants.inRange, Config.railTop] at *
  omega

theorem reclassEntry_lawful {stale stale' : Nat} {e : NeighbourEntry} (h : e.lawful stale) :
    (reclassEntry stale' e).lawful stale' := by
  obtain ⟨h1, h2, _, _⟩ := h
  unfold reclassEntry
  split
  · next ha => exact ⟨h1, h2, by simp [ha], by simp [ha]⟩
  · next ha =>
    have hc : e.content ≠ none := fun hx => ha (h1.mpr hx)
    unfold NeighbourEntry.lawful
    dsimp only
    split
    · next hlt => exact ⟨by simp [hc], h2, by simp, fun _ => hlt⟩
    · next hlt => exact ⟨by simp [hc], h2, fun _ => Nat.le_of_not_lt hlt, by simp⟩

theorem reclassEntry_rank (stale : Nat) (e : NeighbourEntry) : (reclassEntry stale e).rank = e.rank := by
  unfold reclassEntry; split <;> rfl

theorem reclassEntry_content (stale : Nat) (e : NeighbourEntry) : (reclassEntry stale e).content = e.content := by
  unfold reclassEntry; split <;> rfl

/-- R12, R161: a SETUP's constants come into force with the head's trim at 0, as it is in UNCONFIGURED. -/
theorem installSetup_kept (h : Kept full s) {c : Constants} (hc : c.inRange) (mask : BitVec 8)
    (trim : full → s.hs.trim = 0) : Kept full (installSetup mask c s) := by
  have ht := h.ranged.table
  have installed : Kept full ((s.withConstants c).withNt
      { view := mask ||| ownView s.ownRank, entries := s.nt.entries.map (reclassEntry c.staleLimit) }) := by
    refine ⟨{ h.ranged with constants := hc, table := ⟨?_, ?_, fun e he => ?_⟩ }, fun f => ?_⟩
    · show inView (mask ||| ownView s.ownRank) s.ownRank = true
      rw [inView_or, inView_ownView]
      simp
    · show (s.nt.entries.map _).map _ = _
      rw [List.map_map]
      exact (List.map_congr_left (fun e _ => reclassEntry_rank _ e)).trans ht.ranks
    · obtain ⟨e', he', rfl⟩ := List.mem_map.mp he
      exact reclassEntry_lawful (ht.lawful e' he')
    · refine { h.bounded f with head := { (h.bounded f).head with trim := ?_ }, table := fun e he x hx => ?_ }
      · show _ ≤ s.hs.trim ∧ s.hs.trim ≤ _
        rw [trim f]
        exact trimZero_bounds _
      · obtain ⟨e', he', rfl⟩ := List.mem_map.mp he
        rw [reclassEntry_content] at hx
        exact (h.bounded f).table e' he' x hx
  unfold installSetup
  refine setStation_kept (installed.withPli ?_) (by simp)
  exact h.ranged.line

theorem setupTaken_kept (h : Kept full s) (hd : full → Disciplined s) (f : ReceivedFrame) : Kept full (setupTaken f s) := by
  unfold setupTaken
  dsimp only
  split
  · exact raise_kept h _
  · next hu =>
    split
    · exact raise_kept h _
    · next hr =>
      refine installSetup_kept (raiseIf_kept h _ _) (clampConstants_inRange (Nat.lt_of_not_le hr)) _ (fun hf => ?_)
      rw [show (raiseIf _ _ s).hs = s.hs from raiseIf_keeps _ _ s .hs (by simp)]
      have hh := ((hd hf).unconfigured (Decidable.not_not.mp hu)).1
      exact h.ranged.trim (fun hs => by rw [hs] at hh; exact hh.elim (by simp) (by simp))

theorem jobCleared_su (s : State) : (jobCleared s).su = s.su := jobCleared_keeps s .su (by simp)

theorem jobClearTaken_kept (h : Kept full s) : Kept full (jobClearTaken s) := by
  have cleared := jobCleared_kept h
  unfold jobClearTaken
  dsimp only
  split
  · exact raise_kept h _
  · split
    · exact cleared
    · next hu =>
      split
      · exact beginRetractFromHalted_kept cleared hu
      · split
        · exact setStation_kept (setExecutor_kept_of_ne cleared (by simp)) (by simp)
        · exact cleared

/-- A LINE RESET is held. -/
theorem withResetPending_kept (h : Kept full s) : Kept full (s.withSu { s.su with lineResetPending := true }) :=
  h.withSu id (fun f => (h.bounded f).notify)

theorem lineResetTaken_kept (h : Kept full s) : Kept full (lineResetTaken s) := by
  unfold lineResetTaken
  split
  · split
    · exact h
    · exact haltTaken_kept (withResetPending_kept h)
  · split
    · exact withResetPending_kept h
    · exact lineResetEffect_kept h

theorem defaultWindows_inRange : ∀ w ∈ List.replicate 8 ({} : RegionWindow), w.inRange := by
  intro w hw
  obtain ⟨_, rfl⟩ := List.mem_replicate.mp hw
  simp only [RegionWindow.inRange, Config.railTop]
  decide

/-- R159: whatever the pins and levels, and the model's own fields. -/
theorem powerUpState_kept (l : PowerUpLines) (n : Nat) (waiting : List Instr) :
    Kept full { powerUpState l with freeCount := n, pending := waiting } where
  ranged := {
    memory := ⟨rfl, by rintro _ ⟨⟩⟩
    windows := ⟨rfl, defaultWindows_inRange⟩
    constants := defaultConstants_inRange
    table := freshTable_ranged _ _
    travel := ⟨Nat.zero_le _, by rintro _ ⟨⟩⟩
    trim := fun _ => rfl
    enable := fun _ => rfl
    line := ⟨Nat.zero_le _, Nat.zero_le _⟩
    closed := noJoints_ranged }
  bounded _ := {
    travel := travelCleared_bounded {}
    executor := freshExecutor_bounded
    notify := by rintro _ ⟨⟩
    head := ⟨Nat.zero_le _, Nat.zero_le _, .inl rfl, Nat.zero_le _, Nat.le_refl _, trimZero_bounds _, by rintro _ ⟨⟩⟩
    joints := noJoints_bounded
    port := ⟨Nat.le_refl _, by rintro _ ⟨⟩, by rintro _ ⟨⟩⟩
    table := freshTable_bounded _ }

/-! ### Jobs -/

theorem startEnable_kept (h : Kept full s) (hs : s.su.station = .running) (hp : s.hs.state = .parked) :
    Kept full (startEnable s) := by
  unfold startEnable
  split
  · exact h
  · refine withZCommand_kept (s := s.withDp { s.dp with enable := true }) (h.withDp (fun hu => ?_) (fun f => ?_))
      (fun _ => Nat.zero_le _)
    · rw [hs, hp] at hu; exact hu.elim (by simp) (by simp)
    · exact { (h.bounded f).port with }

theorem setStation_su (x : StationState) (s : State) : (setStation x s).su = { s.su with station := x } := by
  obtain ⟨l, he, _⟩ := setStation_eq x s
  rw [he]

theorem startChain_kept (h : Kept full s) (hp : s.hs.state = .parked) : Kept full (startChain s) := by
  have running : Kept full (setStation .running s) := setStation_kept h (by simp)
  have hhs : (setStation .running s).hs = s.hs := setStation_keeps _ s .hs (by simp)
  have emptied := running.withPx (x := { (setStation .running s).px with decided := none, secondary := none, firstRecord := true })
    (fun f => { (running.bounded f).executor with })
  have afresh := emptied.withTg (x := { (setStation .running s).tg with followReported := false }) running.ranged.travel
    (fun f => { (running.bounded f).travel with })
  have told := afresh.withDp (x := { (setStation .running s).dp with lostReported := false, driveReported := false })
    running.ranged.enable (fun f => { (running.bounded f).port with })
  exact startEnable_kept told (by simp [setStation_su]) (by simpa [hhs] using hp)

theorem jobStartTaken_kept (h : Kept full s) (f : ReceivedFrame) : Kept full (jobStartTaken f s) := by
  unfold jobStartTaken
  split
  · exact h
  · split
    · exact raise_kept h _
    · next hr =>
      refine beginFetch_kept (startChain_kept h ?_) _ _
      simp only [startRefused, Bool.or_eq_true, not_or] at hr
      simpa using hr.1.2

/-! ### Loads and replies -/

theorem queueReply_kept (h : Kept full s) (hr : repliesHeld s < Config.replyCapacity) (r : Reply) :
    Kept full (queueReply r s) := by
  refine h.withPli ⟨?_, h.ranged.line.2⟩
  unfold repliesHeld at hr
  simp only [List.length_append, List.length_singleton]
  omega

theorem mem_writeByte {m : List Host.Cell} {a : Nat} {b : Byte} {c : Host.Cell} (h : c ∈ writeByte m a b) :
    c ∈ m ∨ c.1 = a := by
  induction m with
  | nil =>
    unfold writeByte at h
    split at h
    · cases h
    · obtain rfl := List.mem_singleton.mp h; exact .inr rfl
  | cons x m ih =>
    obtain ⟨k, v⟩ := x
    unfold writeByte at h
    split at h
    · split at h
      · exact .inl h
      · exact (List.mem_cons.mp h).elim (fun hx => .inr (hx ▸ rfl)) .inl
    · split at h
      · split at h
        · exact .inl (List.mem_cons_of_mem _ h)
        · exact (List.mem_cons.mp h).elim (fun hx => .inr (hx ▸ rfl)) (fun hx => .inl (List.mem_cons_of_mem _ hx))
      · rcases List.mem_cons.mp h with hx | hx
        · exact .inl (hx ▸ List.mem_cons_self)
        · exact (ih hx).imp_left (List.mem_cons_of_mem _)

/-- R56: a write inside the 512 records lists no byte outside them. -/
theorem writeBytes_within {n : Nat} {m : List Host.Cell} (h : ∀ c ∈ m, c.1 < n) {a : Nat} {bs : List Byte}
    (ha : a + bs.length ≤ n) : ∀ c ∈ writeBytes m a bs, c.1 < n := by
  induction bs generalizing m a with
  | nil => exact h
  | cons b bs ih =>
    simp only [List.length_cons] at ha
    refine ih (fun c hc => ?_) (by omega)
    rcases mem_writeByte hc with hc | hc
    · exact h c hc
    · omega

theorem withPm_kept (h : Kept full s) {m : List Host.Cell} (hw : Memory.wf m = true)
    (hm : ∀ c ∈ m, c.1 < Config.recordCount * Config.recordBytes) : Kept full (s.withPm m) :=
  ⟨{ h.ranged with memory := ⟨hw, hm⟩ }, fun f => { h.bounded f with }⟩

theorem passLoadTaken_kept (h : Kept full s) (hr : repliesHeld s < Config.replyCapacity) (f : ReceivedFrame) :
    Kept full (passLoadTaken f s) := by
  unfold passLoadTaken
  dsimp only
  split
  · next ha =>
    refine queueReply_kept (withPm_kept h (wf_writeBytes h.ranged.memory.1 _ _)
      (writeBytes_within h.ranged.memory.2 ?_)) hr _
    unfold passLoadResult at ha
    split at ha
    · cases ha
    · split at ha
      · cases ha
      · next hfmt =>
        split at ha
        · cases ha
        · simp only [Config.recordCount, Config.recordBytes, List.length_drop] at *
          omega
  · exact queueReply_kept h hr _

theorem withRm_kept (h : Kept full s) {ws : List RegionWindow} (hl : ws.length = 8) (hw : ∀ w ∈ ws, w.inRange) :
    Kept full (s.withRm ws) :=
  ⟨{ h.ranged with windows := ⟨hl, hw⟩ }, fun f => { h.bounded f with }⟩

/-- R53: an accepted window is in its ranges. -/
theorem windowOfPayload_inRange {st : StationState} {bs : List Byte} (h : regionLoadResult st bs = .accepted)
    (k : RegionKind) : (windowOfPayload bs k).inRange := by
  unfold regionLoadResult at h
  split at h
  · cases h
  · split at h
    · cases h
    · split at h
      · cases h
      · next hr =>
        simp only [not_or] at hr
        simp only [windowOfPayload, RegionWindow.inRange]
        omega

theorem regionLoadWindows_inRange (st : StationState) (bs : List Byte) {ws : List RegionWindow}
    (h : ws.length = 8 ∧ ∀ w ∈ ws, w.inRange) :
    (regionLoadWindows st bs ws).length = 8 ∧ ∀ w ∈ regionLoadWindows st bs ws, w.inRange := by
  unfold regionLoadWindows
  split
  · next k ha _ =>
    refine ⟨by rw [List.length_set, h.1], fun w hw => ?_⟩
    rcases List.mem_or_eq_of_mem_set hw with hw | rfl
    · exact h.2 w hw
    · exact windowOfPayload_inRange ha k
  · exact h

theorem regionLoadTaken_kept (h : Kept full s) (hr : repliesHeld s < Config.replyCapacity) (f : ReceivedFrame) :
    Kept full (regionLoadTaken f s) := by
  obtain ⟨h1, h2⟩ := regionLoadWindows_inRange s.su.station f.payload h.ranged.windows
  exact queueReply_kept (withRm_kept h h1 h2) hr _

theorem stationRequest_kept (h : Kept full s) (hr : repliesHeld s < Config.replyCapacity) (f : ReceivedFrame) :
    Kept full (stationRequest f s) := by
  unfold stationRequest
  split
  · exact (queueReply_kept h hr _).withFree _
  · exact h

theorem repliesHeld_of_lineKeeps {t : State} (h : LineKeeps s.pli t.pli) : repliesHeld t = repliesHeld s := by
  have hr := congrArg PeerLine.replies h
  have ht := congrArg PeerLine.transmitting h
  rw [repliesHeld, repliesHeld, ← hr, ← ht]

theorem setCompletionPending_line (b : Bool) (s : State) : LineKeeps s.pli (setCompletionPending b s).pli := by
  obtain ⟨l, he, hl⟩ := setCompletionPending_eq b s
  rw [he]
  exact hl

theorem clearFlags_line (s : State) : LineKeeps s.pli (clearFlags s).pli := by
  obtain ⟨l, he, hl⟩ := clearFlags_eq s
  rw [he]
  exact hl

theorem completionRequest_kept (h : Kept full s) (hr : repliesHeld s < Config.replyCapacity) (f : ReceivedFrame) :
    Kept full (completionRequest f s) := by
  unfold completionRequest
  split
  · split
    · exact queueReply_kept (setCompletionPending_kept h _)
        (by rwa [repliesHeld_of_lineKeeps (setCompletionPending_line false s)]) _
    · exact queueReply_kept h hr _
  · exact h

theorem attentionRequest_kept (h : Kept full s) (hr : repliesHeld s < Config.replyCapacity) (f : ReceivedFrame) :
    Kept full (attentionRequest f s) := by
  unfold attentionRequest
  split
  · split
    · exact queueReply_kept (clearFlags_kept h) (by rwa [repliesHeld_of_lineKeeps (clearFlags_line s)]) _
    · exact queueReply_kept h hr _
  · exact h

theorem jointsRequest_kept (h : Kept full s) (hr : repliesHeld s < Config.replyCapacity) (f : ReceivedFrame) :
    Kept full (jointsRequest f s) := by
  unfold jointsRequest
  split
  · exact queueReply_kept h hr _
  · exact h

theorem formatRequest_kept (h : Kept full s) (hr : repliesHeld s < Config.replyCapacity) (f : ReceivedFrame) :
    Kept full (formatRequest f s) := by
  unfold formatRequest
  split
  · exact queueReply_kept h hr _
  · exact h

/-! ### Frames -/

theorem receptionEnds_kept (h : Kept full s) : Kept full (receptionEnds s) := h.withPli h.ranged.line

/-- A request that is answered is taken with room for its answer (R147, filter 9). -/
theorem repliesHeld_lt_of_frameTaken {k : FrameKind} {bs : List Byte} {f : ReceivedFrame}
    (h : frameTaken k bs s = some f) (hk : k.answered = true) : repliesHeld s < Config.replyCapacity := by
  unfold frameTaken at h
  split at h
  · cases h
  · split at h
    · cases h
    · next g _ =>
      split at h
      · cases h
      · next hf =>
        split at h
        · next hg =>
          by_contra hc
          have hfull : repliesFull s = true := decide_eq_true (Nat.le_of_not_lt hc)
          refine hf ?_
          simp only [filtered, hg, hk, hfull]
          repeat' split
          all_goals rfl
        · cases h

theorem lineStarts_kept (h : Kept full s) (rivals : List Byte) : Kept full (lineStarts rivals s) := by
  obtain ⟨hr, hp⟩ := h.ranged.line
  unfold lineStarts
  split
  · exact h
  · next hidle =>
    rw [hidle] at hr
    split
    · exact h.withPli h.ranged.line
    · next f hf =>
      split
      · unfold queueHead at hf
        split at hf
        · cases hf
          exact h.withPli ⟨hr, hp⟩
        · next r rs _ hq =>
          cases hf
          rw [hq] at hr
          refine h.withPli ⟨?_, hp⟩
          simpa [hq, OwnFrame.isReply] using hr
        · cases hf
      · exact h.withPli h.ranged.line

theorem lineLeft_kept (h : Kept full s) : Kept full (lineLeft s) := by
  obtain ⟨hr, hp⟩ := h.ranged.line
  have lower : s.pli.replies.length ≤ Config.replyCapacity := (Nat.le_add_right _ _).trans hr
  unfold lineLeft
  split
  · exact h
  · exact h.withPli ⟨lower, Nat.zero_le _⟩
  · exact h.withPli ⟨lower, hp⟩

theorem overrideTaken_kept (h : Kept full s) (f : ReceivedFrame) : Kept full (overrideTaken f s) := by
  refine raiseIf_kept (h.withPx (fun hf => ?_)) _ _
  refine { (h.bounded hf).executor with pendingOverride := ?_ }
  rintro _ ⟨⟩
  exact clampNat_bounds (by decide) _

end Sys2Proof.Machine

namespace Sys2Proof.Machine

variable {full : Prop} {s : State}

/-! ### The Drive Port -/

theorem handOn_kept (h : Kept full s) {m : Feedback} (hm : s.dp.slot = some m) : Kept full (handOn m s) := by
  have held : Kept full (holdFeedback m s) := by
    refine h.withDp h.ranged.enable (fun f => ?_)
    have hb := (h.bounded f).port
    refine ⟨Nat.zero_le _, by rintro _ ⟨⟩, ?_⟩
    rintro _ ⟨⟩
    refine ⟨hb.slot m hm, fun p hp => ?_⟩
    simp only [heldAfter] at hp
    split at hp
    · next hr => cases hp; exact hr
    · obtain ⟨x, hx, hxp⟩ := Option.bind_eq_some_iff.mp hp
      exact (hb.held x hx).2 p hxp
  have followed : Kept full (followPosition m (holdFeedback m s)) := by
    unfold followPosition
    split
    · next hr =>
      refine held.withTg ⟨h.ranged.travel.1, ?_⟩ (fun f => ?_)
      · rintro _ ⟨⟩
        exact hr.1
      · exact { (h.bounded f).travel with }
    · exact held
  have lowered : Kept full (followZ m (followPosition m (holdFeedback m s))) := by
    unfold followZ
    split
    · exact followed
    · exact withZCommand_kept followed (fun _ => Nat.min_le_right _ _)
  unfold handOn takeForce
  split
  · refine lowered.withHs lowered.ranged.trim (fun hh => lowered.ranged.enable (.inr hh)) (fun f => ?_)
    exact { (lowered.bounded f).head with force := (h.bounded f).port.slot m hm, forceAge := Nat.zero_le _ }
  · exact lowered

theorem driveFault_kept (h : Kept full s) (found : State) : Kept full (driveFault found s) := by
  unfold driveFault
  split
  · refine faultCause_kept (h.withDp ?_ (fun f => ?_)) _
    · exact h.ranged.enable
    exact { (h.bounded f).port with }
  · exact h

theorem feedbackFaults_kept (h : Kept full s) (m : Feedback) (found : State) : Kept full (feedbackFaults m found s) := by
  have position : Kept full (positionFault m found s) := by
    unfold positionFault
    split
    · exact driveFault_kept h found
    · split
      · refine faultCause_kept (h.withTg ?_ (fun f => ?_)) _
        · exact h.ranged.travel
        exact { (h.bounded f).travel with }
      · exact h
  have overload : Kept full (overloadFault m found (positionFault m found s)) := by
    unfold overloadFault
    split
    · exact headFault_kept position _
    · exact position
  unfold feedbackFaults codeFault
  split
  · exact overload
  · exact driveFault_kept overload found

theorem feedbackCompletes_kept (h : Kept full s) (m : Feedback) (found : State) :
    Kept full (feedbackCompletes m found s) := by
  unfold feedbackCompletes
  split
  · exact h
  · split
    · next he =>
      simp only [spinUpEnds, Bool.and_eq_true, beq_iff_eq] at he
      exact enterHead_kept h (by simp [he.1]) (by simp)
    · split
      · next he =>
        simp only [retractEnds, Bool.and_eq_true, beq_iff_eq] at he
        exact headEnd_kept (enterParked_kept h (by simp [he.1.1]))
      · split
        · next hw =>
          split
          · next he =>
            simp only [plungeEnds, Bool.and_eq_true, beq_iff_eq] at he
            exact plungeDone_kept h hw (by simp [he.1.1])
          · exact h
        · exact h

theorem takeFeedback_kept (h : Kept full s) (b : Bool) : Kept full (takeFeedback b s) := by
  unfold takeFeedback
  split
  · exact h
  · next hm =>
    split
    · exact feedbackFaults_kept (feedbackCompletes_kept (handOn_kept h hm) _ _) _ _
    · exact feedbackCompletes_kept (feedbackFaults_kept (handOn_kept h hm) _ _) _ _

theorem estopAsserted_kept (h : Kept full s) : Kept full (estopAsserted s) := by
  have off : Kept full (s.withDp { s.dp with estop := true, enable := false }) := by
    refine h.withDp (fun _ => rfl) (fun f => ?_)
    exact { (h.bounded f).port with }
  have still := immediateStop_kept off
  unfold estopAsserted
  dsimp only
  split
  · exact heldResetEffect_kept (estopCause_kept still)
  · exact heldResetEffect_kept (estopCause_kept (enterHalted_kept still))

theorem clampOpens_kept (h : Kept full s) : Kept full (clampOpens s) := by
  have opened : Kept full (s.withDp { s.dp with clamp := false }) := by
    refine h.withDp h.ranged.enable (fun f => ?_)
    exact { (h.bounded f).port with }
  unfold clampOpens
  dsimp only
  split
  · exact headFault_kept opened _
  · exact opened

theorem parseFeedback_force {bs : List Byte} {m : Feedback} (h : parseFeedback bs = some m) : m.force ≤ Config.forceTop := by
  unfold parseFeedback at h
  split at h
  · cases h
    exact Nat.le_of_lt_succ (bitsOf_lt _ 0 12)
  · cases h

theorem receivedSlot_kept (h : Kept full s) (message : List Byte) :
    Kept full (match parseFeedback message with
      | some m => s.withDp { s.dp with slot := some m }
      | none => s) := by
  split
  · next m hm =>
    refine h.withDp h.ranged.enable (fun f => ?_)
    refine { (h.bounded f).port with slot := ?_ }
    rintro _ ⟨⟩
    exact parseFeedback_force hm
  · exact h

/-! ### The head and the intervals -/

theorem forceCheck_kept (h : Kept full s) : Kept full (forceCheck s) := by
  unfold forceCheck
  split
  · exact headFault_kept h _
  · exact h

theorem phaseCheck_kept (h : Kept full s) : Kept full (phaseCheck s) := by
  unfold phaseCheck
  split
  · exact headFault_kept h _
  · split
    · exact retractTimesOut_kept h
    · exact endDwell_kept h

theorem headExpiry_kept (h : Kept full s) (phaseFirst : Bool) : Kept full (headExpiry phaseFirst s) := by
  have ramped := headRamps_kept (headCounts_kept h)
  cases phaseFirst
  · exact startPendingRetract_kept (phaseCheck_kept (forceCheck_kept ramped))
  · exact startPendingRetract_kept (forceCheck_kept (phaseCheck_kept ramped))

theorem portWork_kept (h : Kept full s) : Kept full (portWork s) := by
  unfold portWork
  split
  · refine faultCause_kept (h.withDp ?_ (fun f => ?_)) _
    · exact h.ranged.enable
    exact { (h.bounded f).port with age := countUp_le _ }
  · refine h.withDp h.ranged.enable (fun f => ?_)
    exact { (h.bounded f).port with age := countUp_le _ }

theorem periodWork_kept (h : Kept full s) : Kept full (periodWork s) := by
  have hb : s.constants.beaconPeriod ≤ 64 := by
    obtain ⟨_, _, _, ⟨_, h2⟩, _⟩ := h.ranged.constants
    exact h2
  unfold periodWork
  split
  · exact beaconDue_kept (h.withPli ⟨h.ranged.line.1, hb⟩)
  · split
    · exact h.withPli ⟨h.ranged.line.1, by dsimp only; omega⟩
    · exact h

theorem holdOffWork_kept (h : Kept full s) : Kept full (holdOffWork s) := by
  unfold holdOffWork
  dsimp only
  split
  · split
    · exact beaconDue_kept (h.withPli h.ranged.line)
    · exact h.withPli h.ranged.line
  · exact h

theorem lineWork_kept (h : Kept full s) : Kept full (lineWork s) := holdOffWork_kept (periodWork_kept h)

theorem orderedWork_kept (h : Kept full s) (o : ExpiryOrder) : Kept full (orderedWork o s) := by
  cases o with
  | portExecutorLine => exact lineWork_kept (executorTurn_kept (portWork_kept h))
  | portLineExecutor => exact executorTurn_kept (lineWork_kept (portWork_kept h))
  | executorPortLine => exact lineWork_kept (portWork_kept (executorTurn_kept h))
  | executorLinePort => exact portWork_kept (lineWork_kept (executorTurn_kept h))
  | linePortExecutor => exact executorTurn_kept (portWork_kept (lineWork_kept h))
  | lineExecutorPort => exact portWork_kept (executorTurn_kept (lineWork_kept h))

theorem withClock_kept (h : Kept full s) (n : BitVec 32) : Kept full { s with clock := n } :=
  ⟨{ h.ranged with }, fun f => { h.bounded f with }⟩

/-- The queue of waiting commands is no block's. -/
theorem withPending_kept (h : Kept full s) (waiting : List Instr) : Kept full { s with pending := waiting } :=
  ⟨{ h.ranged with }, fun f => { h.bounded f with }⟩

theorem travelEvent_kept (h : Kept full s) : Kept full (travelEvent s) := by
  unfold travelEvent
  split
  · exact h
  · next r hr =>
    have moved := applyTravel_kept h hr
    unfold travelReported
    split
    · exact moved
    · split
      · exact executorPathEnd_kept (headPathEnd_kept moved)
      · exact executorPathEnd_kept moved
    · exact executorShortEnd_kept moved _
    · exact executorShortEnd_kept (retractOnReport_kept moved) _
    · exact executorShortEnd_kept (retractOnReport_kept moved) _

/-! ### Every command -/

/-- What every command keeps between events: the ranges, and no change noted. -/
def Settled (full : Prop) (s : State) : Prop :=
  Kept full s ∧ s.pli.changeNoted = false

theorem settle_changeNoted (s : State) : (settle s).pli.changeNoted = false := by
  unfold settle
  split
  · unfold reportChange beaconDue
    repeat' split
    all_goals rfl
  · next h => exact Bool.eq_false_iff.mpr h

theorem Kept.settled (h : Kept full s) : Settled full (settle s) := ⟨settle_kept h, settle_changeNoted s⟩

/-- A row that names one outcome of an event (log 2). -/
theorem outcome_settled {t : State} (h : Settled full s) (ht : Kept full t) (p : Prop) [Decidable p] :
    Settled full (if p then settle t else s) := by
  split
  · exact ht.settled
  · exact h

/-- A row that acts but in a state where it has nothing to do (logs 25, 29). -/
theorem unless_settled {t : State} (h : Settled full s) (ht : Kept full t) (p : Prop) [Decidable p] :
    Settled full (if p then s else settle t) := by
  split
  · exact h
  · exact ht.settled

theorem receptionEnds_settled (h : Settled full s) : Settled full (receptionEnds s) := ⟨receptionEnds_kept h.1, h.2⟩

/-- A frame row, for what holds of the frame's owner. -/
theorem onFrame_settled (h : Settled full s) (k : FrameKind) (bs : List Byte) {act : ReceivedFrame → State → State}
    (ha : ∀ f, frameTaken k bs s = some f → Kept full (act f (receptionEnds s))) : Settled full (onFrame k bs act s) := by
  unfold onFrame
  split
  · exact receptionEnds_settled h
  · next f hf => exact (ha f hf).settled

/-- A frame row whose owner keeps the ranges. -/
theorem frame_settled (h : Settled full s) (k : FrameKind) (bs : List Byte) {act : ReceivedFrame → State → State}
    (ha : ∀ f, Kept full (act f (receptionEnds s))) : Settled full (onFrame k bs act s) :=
  onFrame_settled h k bs (fun f _ => ha f)

/-- A frame row that is answered: its owner finds room for a reply. -/
theorem answered_settled (h : Settled full s) {k : FrameKind} (hk : k.answered = true) (bs : List Byte)
    {act : ReceivedFrame → State → State}
    (ha : ∀ f, repliesHeld (receptionEnds s) < Config.replyCapacity → Kept full (act f (receptionEnds s))) :
    Settled full (onFrame k bs act s) :=
  onFrame_settled h k bs (fun f hf => ha f (show repliesHeld s < _ from repliesHeld_lt_of_frameTaken hf hk))

theorem lineStarts_settled (h : Settled full s) (rivals : List Byte) : Settled full (lineStarts rivals s) := by
  refine ⟨lineStarts_kept h.1 rivals, ?_⟩
  unfold lineStarts beginTransmission
  repeat' split
  all_goals exact h.2

theorem lineLeft_settled (h : Settled full s) : Settled full (lineLeft s) := by
  refine ⟨lineLeft_kept h.1, ?_⟩
  unfold lineLeft
  split <;> exact h.2

theorem receivedSlot_settled (h : Settled full s) (message : List Byte) :
    ∃ t, exec (.feedbackReceived message) s = .next t ∧ Settled full t := by
  refine ⟨_, rfl, receivedSlot_kept h.1 message, ?_⟩
  split <;> exact h.2

/-- The Drive Port changes in items that carry no range. -/
theorem withDp_settled (h : Settled full s) {x : DrivePort} (he : x.enable = s.dp.enable) (ha : x.age = s.dp.age)
    (hs : x.slot = s.dp.slot) (hh : x.held = s.dp.held) : Settled full (s.withDp x) := by
  refine ⟨h.1.withDp (by rw [he]; exact h.1.ranged.enable) (fun f => ?_), h.2⟩
  obtain ⟨h1, h2, h3⟩ := (h.1.bounded f).port
  exact ⟨ha ▸ h1, hs ▸ h2, hh ▸ h3⟩

theorem Disciplined.of_receptionEnds (h : Disciplined s) : Disciplined (receptionEnds s) := { h with }

/-- Every command keeps the ranges; those of `WithinBounds` from a station whose parts go together. -/
theorem exec_settled (hs : Settled full s) (hd : full → Disciplined s) (c : Instr) :
    ∃ t, exec c s = .next t ∧ Settled full t := by
  have h := hs.1
  have hr := receptionEnds_kept h
  have held : full → HeldFits s := fun f => (hd f).heldFits
  cases c with
  | powerUp l => exact ⟨_, rfl, powerUpState_kept l _ _, rfl⟩
  | intervalClockExpiry o => exact ⟨_, rfl, (orderedWork_kept (withClock_kept h _) o).settled⟩
  | neighbourTableAgeing => exact ⟨_, rfl, (checkRankConflict_kept (ageTable_kept h)).settled⟩
  | entryGoesSilent r => exact ⟨_, rfl, outcome_settled hs (checkRankConflict_kept (ageTable_kept h)) _⟩
  | travelComputation => exact ⟨_, rfl, (travelEvent_kept h).settled⟩
  | stall => exact ⟨_, rfl, outcome_settled hs (travelEvent_kept h) _⟩
  | holdExpired => exact ⟨_, rfl, outcome_settled hs (travelEvent_kept h) _⟩
  | headExpiryWork => exact ⟨_, rfl, (headExpiry_kept h _).settled⟩
  | spinTimeout => exact ⟨_, rfl, outcome_settled hs (headExpiry_kept h _) _⟩
  | plungeTimeout => exact ⟨_, rfl, outcome_settled hs (headExpiry_kept h _) _⟩
  | dwellEnd => exact ⟨_, rfl, outcome_settled hs (headExpiry_kept h _) _⟩
  | forceLost => exact ⟨_, rfl, outcome_settled hs (headExpiry_kept h _) _⟩
  | retractTimeout => exact ⟨_, rfl, outcome_settled hs (headExpiry_kept h _) _⟩
  | pendingRetractStart => exact ⟨_, rfl, outcome_settled hs (headExpiry_kept h _) _⟩
  | jointUnitExpiry => exact ⟨_, rfl, (jointExpiry_kept h).settled⟩
  | coolingRunsOut => exact ⟨_, rfl, outcome_settled hs (jointExpiry_kept h) _⟩
  | pauseEnd => exact ⟨_, rfl, outcome_settled hs (pauseCounts_kept h) _⟩
  | feedbackLost => exact ⟨_, rfl, outcome_settled hs (portWork_kept h) _⟩
  | demandMessage => exact ⟨_, rfl, withDp_settled hs rfl rfl rfl rfl⟩
  | beaconPeriodDue => exact ⟨_, rfl, outcome_settled hs (periodWork_kept h) _⟩
  | holdOffEnd => exact ⟨_, rfl, (holdOffWork_kept h).settled⟩
  | frameStart rivals => exact ⟨_, rfl, lineStarts_settled hs rivals⟩
  | frameLeftLine => exact ⟨_, rfl, lineLeft_settled hs⟩
  | frameDiscarded bs => exact ⟨_, rfl, receptionEnds_settled hs⟩
  | beacon bs => exact ⟨_, rfl, frame_settled hs _ bs (fun f => beaconTaken_kept hr held f)⟩
  | heldRecordStart => exact ⟨_, rfl, (startHeld_kept h held).settled⟩
  | halt bs => exact ⟨_, rfl, frame_settled hs _ bs (fun _ => haltTaken_kept hr)⟩
  | lineReset bs => exact ⟨_, rfl, frame_settled hs _ bs (fun _ => lineResetTaken_kept hr)⟩
  | lineResetTakesEffect => exact ⟨_, rfl, unless_settled hs (lineResetEffect_kept h) _⟩
  | setup bs => exact ⟨_, rfl, frame_settled hs _ bs (fun f => setupTaken_kept hr (fun x => (hd x).of_receptionEnds) f)⟩
  | jobStart bs => exact ⟨_, rfl, frame_settled hs _ bs (fun f => jobStartTaken_kept hr f)⟩
  | jobClear bs => exact ⟨_, rfl, frame_settled hs _ bs (fun _ => jobClearTaken_kept hr)⟩
  | override bs => exact ⟨_, rfl, frame_settled hs _ bs (fun f => overrideTaken_kept hr f)⟩
  | passLoad bs => exact ⟨_, rfl, answered_settled hs rfl bs (fun f room => passLoadTaken_kept hr room f)⟩
  | regionLoad bs => exact ⟨_, rfl, answered_settled hs rfl bs (fun f room => regionLoadTaken_kept hr room f)⟩
  | statusRequestStation bs => exact ⟨_, rfl, answered_settled hs rfl bs (fun f room => stationRequest_kept hr room f)⟩
  | statusRequestCompletion bs =>
    exact ⟨_, rfl, answered_settled hs rfl bs (fun f room => completionRequest_kept hr room f)⟩
  | statusRequestAttention bs =>
    exact ⟨_, rfl, answered_settled hs rfl bs (fun f room => attentionRequest_kept hr room f)⟩
  | statusRequestJoints bs => exact ⟨_, rfl, answered_settled hs rfl bs (fun f room => jointsRequest_kept hr room f)⟩
  | statusRequestFormat bs => exact ⟨_, rfl, answered_settled hs rfl bs (fun f room => formatRequest_kept hr room f)⟩
  | feedbackReceived m => exact receivedSlot_settled hs m
  | feedbackTaken => exact ⟨_, rfl, (takeFeedback_kept h _).settled⟩
  | spinUpComplete => exact ⟨_, rfl, outcome_settled hs (takeFeedback_kept h _) _⟩
  | plungeComplete => exact ⟨_, rfl, outcome_settled hs (takeFeedback_kept h _) _⟩
  | retractComplete => exact ⟨_, rfl, outcome_settled hs (takeFeedback_kept h _) _⟩
  | recordClose => exact ⟨_, rfl, (executorCloses_kept h).settled⟩
  | emergencyStopAsserted => exact ⟨_, rfl, unless_settled hs (estopAsserted_kept h) _⟩
  | emergencyStopReleased => exact ⟨_, rfl, withDp_settled hs rfl rfl rfl rfl⟩
  | clampLineFalse => exact ⟨_, rfl, outcome_settled hs (clampOpens_kept h) _⟩
  | clampLineTrue => exact ⟨_, rfl, withDp_settled hs rfl rfl rfl rfl⟩

/-- The same of a step, which takes the front command with the queue's rest. -/
theorem step_settled (hs : Settled full s) (hd : full → Disciplined s) {t : State} (ht : step s = .next t) :
    Settled full t := by
  unfold step at ht
  split at ht
  · cases ht
    exact hs
  · next c rest _ =>
    have dequeued : Settled full { s with pending := rest } := ⟨withPending_kept hs.1 rest, hs.2⟩
    obtain ⟨u, hu, hk⟩ := exec_settled dequeued (fun f => { hd f with }) c
    cases hu.symm.trans ht
    exact hk

/-- Settles O5: `InRange` from itself alone, `WithinBounds` with the discipline of a station in order. -/
theorem rangesKept : Obligations.RangesKept := by
  refine ⟨fun s t hs ht => ?_, fun s t hs ht => ?_⟩
  · obtain ⟨hr, hn⟩ := (inRange_iff s).mp hs
    obtain ⟨ht, hn'⟩ := step_settled (full := False) ⟨⟨hr, False.elim⟩, hn⟩ False.elim ht
    exact (inRange_iff t).mpr ⟨ht.ranged, hn'⟩
  · obtain ⟨hr, hn⟩ := (inRange_iff s).mp hs.ranges
    have hb := (withinBounds_iff s).mp hs.bounds
    obtain ⟨ht, _⟩ := step_settled (full := True) ⟨⟨hr, fun _ => hb⟩, hn⟩ (fun _ => hs.discipline) ht
    exact (withinBounds_iff t).mpr (ht.bounded trivial)

end Sys2Proof.Machine

namespace Sys2Proof.Machine

/-! ### Power-up and the state after reset -/

theorem powerUpState_values (l : PowerUpLines) (n : Nat) (waiting : List Instr) :
    PowerUpValues { powerUpState l with freeCount := n, pending := waiting } where
  station := rfl
  clock := rfl
  constants := rfl
  view := inView_ownView _
  entries := by
    refine ⟨(freshTable_ranged _ 0).ranks, fun e he => ?_⟩
    obtain ⟨r, _, rfl⟩ := List.mem_map.mp he
    exact ⟨rfl, rfl, rfl⟩
  windows := ⟨rfl, fun w hw => (List.mem_replicate.mp hw).2⟩
  travel := rfl
  memory _ := rfl
  executor := ⟨rfl, rfl, rfl, rfl, rfl, rfl, rfl, rfl, rfl, rfl, rfl⟩
  head := ⟨rfl, rfl, rfl, rfl, rfl, rfl, rfl, rfl⟩
  joints := rfl
  port := ⟨rfl, rfl, rfl, rfl, rfl, rfl⟩
  line := ⟨rfl, rfl, rfl, rfl, rfl, rfl⟩

/-- Settles O3. -/
theorem powerUpTakesItsValues : Obligations.PowerUpTakesItsValues := by
  intro l s
  refine ⟨_, rfl, powerUpState_values l s.freeCount s.pending, rfl, rfl, rfl, ?_, rfl⟩
  cases h : l.lineBusy <;> simp [powerUpState, h]

/-- Reset is power-up with the pins and levels of log 6. -/
theorem reset_eq_powerUpState :
    State.reset = { powerUpState ⟨0, false, false, false⟩ with freeCount := 0, pending := [] } := rfl

/-- A station after power-up is idle in every block: no chain, no retract and no report is under way. -/
theorem reset_disciplined : Disciplined State.reset where
  station := rfl
  head := rfl
  record := trivial
  travel := by rintro ⟨⟩
  target h := absurd rfl h
  pendingRetract := by rintro ⟨⟩
  stopped := by rintro ⟨⟩
  decided := ⟨by rintro ⟨⟩, by rintro ⟨⟩⟩
  resetPending := by rintro ⟨⟩
  unconfigured _ := ⟨.inl rfl, rfl, rfl, rfl⟩
  openList := ⟨Nat.zero_le _, List.nodup_nil⟩

/-- Settles O4. -/
theorem resetIsSafe : Obligations.ResetIsSafe := by
  have kept : Kept True State.reset := reset_eq_powerUpState ▸ powerUpState_kept ⟨0, false, false, false⟩ 0 []
  refine ⟨reset_eq_powerUpState ▸ powerUpState_values ⟨0, false, false, false⟩ 0 [], ?_, ?_, reset_disciplined⟩
  · exact (inRange_iff _).mpr ⟨kept.ranged, rfl⟩
  · exact (withinBounds_iff _).mpr (kept.bounded trivial)

/-! ### Adjacent neighbours -/

/-- The first hit of a search comes before every other hit, in the order `R` in which the list stands. -/
theorem find?_eq_some_iff_first {α : Type*} {R : α → α → Prop} (asymm : ∀ a b, R a b → ¬ R b a) {l : List α}
    (h : l.Pairwise R) (p : α → Bool) (r : α) :
    l.find? p = some r ↔ r ∈ l ∧ p r = true ∧ ∀ q ∈ l, p q = true → q = r ∨ R r q := by
  induction l with
  | nil => simp
  | cons x l ih =>
    obtain ⟨hx, hl⟩ := List.pairwise_cons.mp h
    cases hp : p x with
    | true =>
      rw [List.find?_cons_of_pos hp, Option.some.injEq]
      constructor
      · rintro rfl
        refine ⟨List.mem_cons_self, hp, fun q hq _ => ?_⟩
        exact (List.mem_cons.mp hq).imp_right (hx q)
      · rintro ⟨hr, _, first⟩
        rcases List.mem_cons.mp hr with rfl | hr
        · rfl
        · exact (first x List.mem_cons_self hp).resolve_right (asymm x r (hx r hr))
    | false =>
      have other : ∀ q, p q = true → q ≠ x := by rintro q hq rfl; rw [hp] at hq; cases hq
      rw [List.find?_cons_of_neg (by simp [hp]), ih hl]
      constructor
      · rintro ⟨hr, hpr, first⟩
        refine ⟨List.mem_cons_of_mem _ hr, hpr, fun q hq hpq => ?_⟩
        exact first q ((List.mem_cons.mp hq).resolve_left (other q hpq)) hpq
      · rintro ⟨hr, hpr, first⟩
        exact ⟨(List.mem_cons.mp hr).resolve_left (other r hpr), hpr, fun q hq => first q (List.mem_cons_of_mem _ hq)⟩

theorem mem_allRanks (r : Rank) : r ∈ allRanks := by revert r; decide

theorem mem_allRanks_reverse (r : Rank) : r ∈ allRanks.reverse := List.mem_reverse.mpr (mem_allRanks r)

/-- R3: the lowest rank of the view above the own one. -/
theorem upperNeighbour_eq_some (own : Rank) (v : BitVec 8) (r : Rank) :
    upperNeighbour own v = some r ↔ own < r ∧ inView v r = true ∧ ∀ q, own < q → inView v q = true → r ≤ q := by
  rw [upperNeighbour, find?_eq_some_iff_first (R := (· < ·)) (fun a b => lt_asymm) (by decide)]
  simp only [mem_allRanks, true_and, Bool.and_eq_true, decide_eq_true_eq, and_assoc, and_imp, forall_const,
    le_iff_eq_or_lt, eq_comm (a := r)]

/-- R3: the highest rank of the view below the own one. -/
theorem lowerNeighbour_eq_some (own : Rank) (v : BitVec 8) (r : Rank) :
    lowerNeighbour own v = some r ↔ r < own ∧ inView v r = true ∧ ∀ q, q < own → inView v q = true → q ≤ r := by
  rw [lowerNeighbour, find?_eq_some_iff_first (R := (· > ·)) (fun a b => lt_asymm) (by decide)]
  simp only [mem_allRanks_reverse, true_and, Bool.and_eq_true, decide_eq_true_eq, and_assoc, and_imp, forall_const,
    le_iff_eq_or_lt, gt_iff_lt]

theorem upperNeighbour_eq_none (own : Rank) (v : BitVec 8) :
    upperNeighbour own v = none ↔ ∀ q, own < q → inView v q = false := by
  simp [upperNeighbour, List.find?_eq_none, mem_allRanks]

theorem lowerNeighbour_eq_none (own : Rank) (v : BitVec 8) :
    lowerNeighbour own v = none ↔ ∀ q, q < own → inView v q = false := by
  simp [lowerNeighbour, List.find?_eq_none, mem_allRanks]

/-- Settles O21. -/
theorem adjacentNeighbours : Obligations.AdjacentNeighbours := fun own view =>
  ⟨upperNeighbour_eq_some own view, upperNeighbour_eq_none own view, lowerNeighbour_eq_some own view,
    lowerNeighbour_eq_none own view⟩

end Sys2Proof.Machine

namespace Sys2Proof.Machine

/-! ### Fields of bytes written one after another -/

theorem fieldAt_skip {xs : List Byte} {off : Nat} (h : xs.length ≤ off) (ys : List Byte) (len : Nat) :
    fieldAt (xs ++ ys) off len = fieldAt ys (off - xs.length) len := by
  have hc : off + len ≤ (xs ++ ys).length ↔ off - xs.length + len ≤ ys.length := by rw [List.length_append]; omega
  unfold fieldAt
  rw [List.drop_append, List.drop_eq_nil_of_le h, List.nil_append]
  simp only [hc]

theorem fieldAt_bytesOfNat_skip {k off : Nat} (h : k ≤ off) (n : Nat) (ys : List Byte) (len : Nat) :
    fieldAt (bytesOfNat k n ++ ys) off len = fieldAt ys (off - k) len := by
  rw [fieldAt_skip (by simpa using h), length_bytesOfNat]

theorem fieldAt_bytesOfNat_append {k n : Nat} (h : n < 256 ^ k) (ys : List Byte) :
    fieldAt (bytesOfNat k n ++ ys) 0 k = n := by
  rw [fieldAt_of_eq (xs := []) (zs := ys) (by rw [List.nil_append]) List.length_nil (length_bytesOfNat k n),
    natOfBytes_bytesOfNat_of_lt h]

theorem fieldAt_bytesOfNat {k n : Nat} (h : n < 256 ^ k) : fieldAt (bytesOfNat k n) 0 k = n := by
  simpa using fieldAt_bytesOfNat_append h []

theorem fieldAt_cons_skip {off : Nat} (h : 1 ≤ off) (b : Byte) (ys : List Byte) (len : Nat) :
    fieldAt (b :: ys) off len = fieldAt ys (off - 1) len :=
  fieldAt_skip (xs := [b]) h ys len

theorem fieldAt_cons (b : Byte) (ys : List Byte) : fieldAt (b :: ys) 0 1 = b.toNat := by
  simp [fieldAt]

/-- A SETUP's constants are read as they were written (12.4). -/
theorem setupConstants_setupPayload (mask : BitVec 8) {c : Constants} (h : c.carried) :
    setupConstants (setupPayload mask c) = c := by
  obtain ⟨h1, h2, h3, h4, h5, h6, h7, h8, h9, h10, h11, h12, h13, h14, h15, h16, h17, h18⟩ := h
  delta setupPayload
  simp only [setupConstants, List.append_assoc, List.cons_append, List.nil_append, fieldAt_cons_skip,
    fieldAt_bytesOfNat_skip, fieldAt_bytesOfNat_append, fieldAt_bytesOfNat, Nat.reduceSub, Nat.reduceLeDiff,
    Nat.reducePow, Nat.le_refl, h1, h2, h3, h4, h5, h6, h7, h8, h9, h10, h11, h12, h13, h14, h15, h16, h17, h18]

theorem setupMask_setupPayload (mask : BitVec 8) (c : Constants) : setupMask (setupPayload mask c) = mask := by
  delta setupPayload
  simp only [setupMask, List.append_assoc, List.cons_append, List.nil_append, fieldAt_cons, BitVec.ofNat_toNat,
    BitVec.setWidth_eq]

end Sys2Proof.Machine

namespace Sys2Proof.Machine

/-! ### SETUP -/

/-- What reported changes leave alone in the Peer Line Interface, item by item (R154). -/
theorem lineKeeps_iff (a b : PeerLine) : LineKeeps a b ↔ b.replies = a.replies ∧ b.transmitting = a.transmitting
    ∧ b.reception = a.reception ∧ b.periodCount = a.periodCount ∧ b.periodOverrun = a.periodOverrun
    ∧ b.holdOff = a.holdOff ∧ b.lineBytes = a.lineBytes := by
  cases a
  simp [LineKeeps, PeerLine.mk.injEq]

/-- A command that is refused sets its flag, and the reception is over; nothing else changes. -/
theorem refused_effect (f : AttentionFlag) (s : State) :
    Keeps [.su, .pli] s (settle (raise f (receptionEnds s))) ∧ (settle (raise f (receptionEnds s))).flag f = true
      ∧ FlagsKeep [f] s (settle (raise f (receptionEnds s)))
      ∧ LineKeeps { s.pli with reception := .none } (settle (raise f (receptionEnds s))).pli := by
  obtain ⟨l, hr, hl⟩ := raise_eq f (receptionEnds s)
  obtain ⟨m, hs, hm⟩ := settle_eq (raise f (receptionEnds s))
  have hflag := fun g => State.flag_raise f g (receptionEnds s)
  refine ⟨?_, ?_, ⟨fun g hg => ?_, ?_⟩, ?_⟩
  · exact (settle_keeps _).via ((raise_keeps _ _).via (withPli_keeps s _ |>.mono (by rfl)) (by rfl)) (by rfl)
  · rw [hs]
    exact (hflag f).trans (by simp)
  · rw [hs]
    refine (hflag g).trans ?_
    simp only [List.mem_singleton] at hg
    simp only [hg, decide_false, Bool.or_false]
    rfl
  · rw [hs, hr]
    rfl
  · rw [hr] at hm
    rw [hs]
    exact hl.trans hm

theorem clampNat_eq_nearest {lo hi : Nat} (h : lo ≤ hi) (x : Nat) : clampNat lo hi x = nearest lo hi x := by
  unfold clampNat nearest
  split
  · omega
  · split <;> omega

theorem clampNat_zero (hi x : Nat) : clampNat 0 hi x = min x hi := by unfold clampNat; omega

/-- R162: what the constants of a SETUP become (9.3). -/
theorem clampConstants_eq {c : Constants} (h : c.carried) : clampConstants c =
    { spacing := nearest 200000 4000000 c.spacing, accel := nearest 1 32 c.accel, decel := nearest 1 32 c.decel
      beaconPeriod := nearest 2 64 c.beaconPeriod
      staleLimit := max (nearest 8 1023 c.staleLimit) (3 * nearest 2 64 c.beaconPeriod)
      railMin := min c.railMin 33554431, railMax := min c.railMax 33554431
      stirLimit := nearest 25 2500 c.stirLimit, stallLimit := nearest 250 65535 c.stallLimit
      followLimit := nearest 200 20000 c.followLimit, forceGain := c.forceGain
      maxTrimStep := nearest 1 64 c.maxTrimStep, trimLimit := min c.trimLimit 2000
      forceCeiling := nearest 500 4095 c.forceCeiling, spinUpTimeout := nearest 250 7500 c.spinUpTimeout
      plungeTimeout := nearest 250 15000 c.plungeTimeout, retractTimeout := nearest 250 7500 c.retractTimeout
      retractRate := nearest 5 255 c.retractRate } := by
  have hgain : clampNat 0 255 c.forceGain = c.forceGain :=
    clampNat_eq_self (Nat.zero_le _) (by obtain ⟨_, _, _, _, _, _, _, _, _, _, hg, _⟩ := h; omega)
  rw [clampConstants, hgain]
  simp only [clampNat_zero, Config.railTop]
  simp only [clampNat_eq_nearest, Nat.reduceLeDiff]

theorem reclassEntry_eq (stale : Nat) (e : NeighbourEntry) : reclassEntry stale e =
    { e with liveness := if e.liveness = .absent then .absent else if stale < e.age then .silent else .live } := by
  unfold reclassEntry
  by_cases h : e.liveness = .absent
  · rw [if_pos h, if_pos h, ← h]
  · rw [if_neg h, if_neg h]

/-- R161. -/
theorem installSetup_eq (mask : BitVec 8) (c : Constants) (s : State) :
    ∃ l, installSetup mask c s = { s with
        constants := c
        nt := { view := mask ||| ownView s.ownRank, entries := s.nt.entries.map (reclassEntry c.staleLimit) }
        su := { s.su with station := .idle }, pli := l }
      ∧ LineKeeps { s.pli with periodOverrun := decide (c.beaconPeriod ≤ s.pli.periodCount) } l := by
  obtain ⟨l, he, hl⟩ := setStation_eq .idle
    { s with
      constants := c
      nt := { view := mask ||| ownView s.ownRank, entries := s.nt.entries.map (reclassEntry c.staleLimit) }
      pli := { s.pli with periodOverrun := decide (c.beaconPeriod ≤ s.pli.periodCount) } }
  exact ⟨l, he, hl⟩

/-- R161 to R163: a SETUP that is taken. -/
theorem setupInstalled_eq (mask : BitVec 8) (c : Constants) (clamped : Bool) (s : State) :
    ∃ l, settle (installSetup mask c (raiseIf clamped .paramClamped (receptionEnds s))) = { s with
        constants := c
        nt := { view := mask ||| ownView s.ownRank, entries := s.nt.entries.map (reclassEntry c.staleLimit) }
        su := { s.su with
          station := .idle
          flags := if clamped then s.su.flags ||| (1#14 <<< AttentionFlag.paramClamped.bit) else s.su.flags }
        pli := l }
      ∧ LineKeeps { s.pli with
          reception := .none, periodOverrun := decide (c.beaconPeriod ≤ s.pli.periodCount) } l := by
  obtain ⟨l1, h1, k1⟩ := raiseIf_eq clamped .paramClamped (receptionEnds s)
  obtain ⟨l2, h2, k2⟩ := installSetup_eq mask c (raiseIf clamped .paramClamped (receptionEnds s))
  obtain ⟨l3, h3, k3⟩ := settle_eq (installSetup mask c (raiseIf clamped .paramClamped (receptionEnds s)))
  rw [h2] at k3
  refine ⟨l3, by rw [h3, h2, h1]; rfl, LineKeeps.trans ?_ k3⟩
  rw [h1] at k2
  obtain ⟨r1, r2, r3, r4, r5, r6, r7⟩ := (lineKeeps_iff _ _).mp k1
  obtain ⟨q1, q2, q3, q4, q5, q6, q7⟩ := (lineKeeps_iff _ _).mp k2
  refine (lineKeeps_iff _ _).mpr ⟨q1.trans r1, q2.trans r2, q3.trans r3, q4.trans r4, q5.trans ?_, q6.trans r6,
    q7.trans r7⟩
  dsimp only
  rw [r4]
  rfl

/-- A flag that is raised where `b` holds. -/
theorem flag_raisedIf (b : Bool) (v : BitVec 14) (f g : AttentionFlag) :
    (if b then v ||| (1#14 <<< f.bit) else v).getLsbD g.bit = (v.getLsbD g.bit || (b && decide (g = f))) := by
  cases b
  · simp
  · simpa using flag_raised v f g

/-- Settles O52. -/
theorem setupConfigures : Obligations.SetupConfigures := by
  intro s sender dest mask c hc htaken
  have hread := setupConstants_setupPayload mask hc
  have hmask := setupMask_setupPayload mask c
  have hexec : exec (.setup (cellFrame .setup sender dest (setupPayload mask c))) s = .next (settle
      (if s.su.station ≠ .unconfigured then raise .setupIgnored (receptionEnds s)
       else if (clampConstants c).railMax ≤ (clampConstants c).railMin then raise .setupIgnored (receptionEnds s)
       else installSetup mask (clampConstants c)
        (raiseIf (decide (clampConstants c ≠ c)) .paramClamped (receptionEnds s)))) := by
    show Host.Outcome.next (onFrame _ _ _ _) = _
    rw [onFrame_of_taken htaken]
    simp only [setupTaken, hread, hmask]
    rfl
  have hrails : (clampConstants c).railMax = min c.railMax 33554431 ∧ (clampConstants c).railMin = min c.railMin 33554431 :=
    ⟨clampNat_zero _ _, clampNat_zero _ _⟩
  rw [hrails.1, hrails.2] at hexec
  refine ⟨fun hign => ?_, fun hun hord => ?_⟩
  · refine ⟨_, ?_, refused_effect .setupIgnored s⟩
    rw [hexec]
    rcases hign with hst | hrail
    · rw [if_pos hst]
    · rw [if_pos hrail, ite_self]
  · rw [if_neg (not_not.mpr hun), if_neg (Nat.not_le.mpr hord)] at hexec
    obtain ⟨l, he, hl⟩ := setupInstalled_eq mask (clampConstants c) (decide (clampConstants c ≠ c)) s
    rw [he] at hexec
    refine ⟨_, hexec, ?_, clampConstants_eq hc, fun q => ?_, ?_, rfl, rfl, fun f hf => ?_, ?_, hl⟩
    · exact fun x hx => by cases x <;> simp_all [Part.same]
    · exact (inView_or _ _ _).trans (by rw [inView_ownView])
    · exact List.map_congr_left (fun e _ => reclassEntry_eq _ e)
    · exact (flag_raisedIf _ _ _ _).trans (by simp only [hf, decide_false, Bool.and_false, Bool.or_false]; rfl)
    · exact (flag_raisedIf _ _ _ _).trans (by simp only [decide_true, Bool.and_true]; rfl)

end Sys2Proof.Machine

namespace Sys2Proof.Machine

/-! ### Well-formed beacons (R5) -/

theorem fieldAt_drop (bs : List Byte) (k off : Nat) {len : Nat} (hl : 0 < len) :
    fieldAt (bs.drop k) off len = fieldAt bs (k + off) len := by
  have hc : off + len ≤ (bs.drop k).length ↔ k + off + len ≤ bs.length := by rw [List.length_drop]; omega
  unfold fieldAt
  simp only [hc, List.drop_drop]

/-- The open joints of a payload, by their places. -/
theorem openFields_eq (n : Nat) (bs : List Byte) : openFields n bs =
    (List.range n).map (fun i => (fieldAt bs (4 * i) 1, fieldAt bs (4 * i + 1) 1, fieldAt bs (4 * i + 2) 2)) := by
  induction n generalizing bs with
  | zero => rfl
  | succ n ih =>
    rw [openFields, ih, List.range_succ_eq_map, List.map_cons, List.map_map]
    congr 1
    refine List.map_congr_left (fun i _ => ?_)
    have next : 4 * (i + 1) = 4 + 4 * i := by omega
    simp only [fieldAt_drop, Nat.zero_lt_succ, Function.comp_apply, Nat.succ_eq_add_one, next, Nat.add_assoc]

theorem fieldAt_one {bs : List Byte} {k : Nat} (h : k < bs.length) : fieldAt bs k 1 = bs[k].toNat := by
  unfold fieldAt
  rw [if_pos (show k + 1 ≤ bs.length from h), List.drop_eq_getElem_cons h, List.take_succ_cons, List.take_zero, natOfBytes_singleton]

/-- The closed ids of a payload of the right length, by their places. -/
theorem closedFields_eq {bs : List Byte} {k m : Nat} (h : bs.length = k + m) :
    ((bs.drop k).take m).map (fun b => b.toNat) = (List.range m).map (fun i => fieldAt bs (k + i) 1) := by
  refine List.ext_getElem (by simp [h]) (fun i h1 h2 => ?_)
  have hi : k + i < bs.length := by simp at h2; omega
  simp [fieldAt_one hi]

theorem nodup_map_range {n : Nat} {f : Nat → Nat} :
    ((List.range n).map f).Nodup ↔ ∀ i j, i < j → j < n → f i ≠ f j := by
  rw [List.nodup_map_iff_inj_on List.nodup_range]
  simp only [List.mem_range]
  constructor
  · intro h i j hij hj he
    exact absurd (h i (hij.trans hj) j hj he) hij.ne
  · intro h i hi j hj he
    rcases lt_trichotomy i j with hij | hij | hij
    · exact absurd he (h i j hij hj)
    · exact hij
    · exact absurd he.symm (h j i hij hi)

theorem bitOf_zero (n : Nat) : bitOf n 0 = true ↔ n % 2 = 1 := by
  simp [bitOf, bitsOf]

/-- What `wellFormed` looks at, place by place. -/
theorem wellFormed_iff_fields (bs : List Byte) : (beaconFields bs).wellFormed = true ↔
    bs.length = 18 + 4 * fieldAt bs 16 1 + fieldAt bs 17 1
    ∧ (fieldAt bs 0 2 ≤ 3 ∧ fieldAt bs 2 2 ≤ 6 ∧ fieldAt bs 4 2 ≤ 6)
    ∧ (fieldAt bs 6 2 % 2 = 1 → fieldAt bs 8 4 ≤ Config.railTop)
    ∧ fieldAt bs 12 2 ≤ 2000 ∧ fieldAt bs 14 2 ≤ 511
    ∧ (fieldAt bs 16 1 ≤ 4 ∧ fieldAt bs 17 1 ≤ 4)
    ∧ (∀ i < fieldAt bs 16 1, openId bs i ≠ 0 ∧ openState bs i ≤ 2)
    ∧ (∀ i < fieldAt bs 17 1, closedId bs i ≠ 0)
    ∧ (∀ i j, i < j → j < fieldAt bs 16 1 → openId bs i ≠ openId bs j)
    ∧ (∀ i j, i < j → j < fieldAt bs 17 1 → closedId bs i ≠ closedId bs j) := by
  by_cases hl : bs.length = 18 + 4 * fieldAt bs 16 1 + fieldAt bs 17 1
  · have hopen : (beaconFields bs).openList = (List.range (fieldAt bs 16 1)).map
        (fun i => (openId bs i, openState bs i, fieldAt bs (18 + (4 * i + 2)) 2)) := by
      simp only [beaconFields, openFields_eq, fieldAt_drop, Nat.zero_lt_succ, openId, openState]
      refine List.map_congr_left (fun i _ => ?_)
      rw [show 19 + 4 * i = 18 + (4 * i + 1) by omega]
    have hclosed : (beaconFields bs).closedList = (List.range (fieldAt bs 17 1)).map (closedId bs) :=
      closedFields_eq hl
    have h18 : 18 ≤ bs.length := by omega
    have hindex : (beaconFields bs).index < Config.recordCount ↔ fieldAt bs 14 2 ≤ 511 := Nat.lt_succ_iff
    have hpos : (bitOf (beaconFields bs).bits 0 = false ∨ (beaconFields bs).position ≤ Config.railTop)
        ↔ (fieldAt bs 6 2 % 2 = 1 → fieldAt bs 8 4 ≤ Config.railTop) := by
      rw [← bitOf_zero, or_iff_not_imp_left, Bool.not_eq_false]
      rfl
    simp only [BeaconFields.wellFormed, Bool.and_eq_true, decide_eq_true_eq, Bool.or_eq_true, Bool.not_eq_true', hindex,
      hpos, hopen, hclosed, List.all_map, List.map_map, List.all_eq_true, List.mem_range, Function.comp_def,
      nodup_map_range]
    constructor
    · rintro ⟨⟨⟨⟨⟨⟨⟨⟨⟨⟨⟨⟨⟨_, _⟩, a⟩, b⟩, c⟩, d⟩, e⟩, f⟩, g⟩, h⟩, i⟩, j⟩, k⟩, l⟩
      exact ⟨hl, ⟨a, b, c⟩, d, e, f, ⟨g, h⟩, i, j, k, l⟩
    · rintro ⟨_, ⟨a, b, c⟩, d, e, f, ⟨g, h⟩, i, j, k, l⟩
      exact ⟨⟨⟨⟨⟨⟨⟨⟨⟨⟨⟨⟨⟨h18, hl⟩, a⟩, b⟩, c⟩, d⟩, e⟩, f⟩, g⟩, h⟩, i⟩, j⟩, k⟩, l⟩
  · refine iff_of_false (fun h => hl ?_) (fun h => hl h.1)
    simp only [BeaconFields.wellFormed, Bool.and_eq_true, decide_eq_true_eq] at h
    exact h.1.1.1.1.1.1.1.1.1.1.1.1.2

/-- R5: a beacon is well formed where none of the ten things makes it malformed. -/
theorem wellFormed_iff (bs : List Byte) : (beaconFields bs).wellFormed = true ↔ ¬ Malformed bs := by
  rw [wellFormed_iff_fields]
  constructor
  · rintro ⟨hl, ⟨h1, h2, h3⟩, hp, hs, hi, ⟨ho, hc⟩, hopen, hclosed, hshared, htwice⟩ hm
    cases hm with
    | stateField h => omega
    | position hk h => exact absurd (hp hk) (Nat.not_le.mpr h)
    | speed h => omega
    | index h => omega
    | counts h => omega
    | zeroOpen i hi h => exact (hopen i hi).1 h
    | zeroClosed i hi h => exact hclosed i hi h
    | sharedOpen i j hij hj h => exact hshared i j hij hj h
    | twiceClosed i j hij hj h => exact htwice i j hij hj h
    | openState i hi h => exact absurd (hopen i hi).2 (Nat.not_le.mpr h)
    | length h => exact h hl
  · intro hm
    have states : fieldAt bs 0 2 ≤ 3 ∧ fieldAt bs 2 2 ≤ 6 ∧ fieldAt bs 4 2 ≤ 6 := by
      by_contra h
      exact hm (.stateField (by omega))
    have counts : fieldAt bs 16 1 ≤ 4 ∧ fieldAt bs 17 1 ≤ 4 := by
      by_contra h
      exact hm (.counts (by omega))
    exact ⟨Decidable.not_not.mp (fun h => hm (.length h)), states,
      fun hk => Nat.le_of_not_lt (fun h => hm (.position hk h)), Nat.le_of_not_lt (fun h => hm (.speed h)),
      Nat.le_of_not_lt (fun h => hm (.index h)), counts,
      fun i hi => ⟨fun h => hm (.zeroOpen i hi h), Nat.le_of_not_lt (fun h => hm (.openState i hi h))⟩,
      fun i hi h => hm (.zeroClosed i hi h), fun i j hij hj h => hm (.sharedOpen i j hij hj h),
      fun i j hij hj h => hm (.twiceClosed i j hij hj h)⟩

/-- Settles O25: the owner of the frame does nothing, and with no change noted there is none to report. -/
theorem malformedBeaconDiscarded : Obligations.MalformedBeaconDiscarded := by
  intro s r dest payload htaken hm hquiet
  have hw : (beaconFields payload).wellFormed = false :=
    Bool.eq_false_iff.mpr (fun h => (wellFormed_iff payload).mp h hm)
  show Host.Outcome.next (onFrame _ _ _ _) = _
  rw [onFrame_of_beaconTaken htaken]
  simp only [beaconTaken, hw, Bool.false_eq_true, if_false]
  rw [settle_of_quiet (show (receptionEnds s).pli.changeNoted = false from hquiet)]
  rfl

end Sys2Proof.Machine

namespace Sys2Proof.Machine

variable {s t : State}

/-! ### Stopping causes with no LINE RESET pending

A cause that stops the chain closes the record with an end that fetches nothing (R89), so with no LINE RESET pending it touches
the chain's own blocks and nothing else. -/

/-- The parts that a chain's stop may change with no LINE RESET pending. -/
def stopParts : List Part := [.tg, .px, .hs, .ju, .su, .freeCount, .pli]

/-- `t` comes from `s` by operations of the chain that leave the listed flags free, and no LINE RESET pending or taking
effect. -/
structure Calm (free : List AttentionFlag) (s t : State) : Prop where
  kept : Keeps stopParts s t
  flags : ∀ f, f ∉ free → t.flag f = s.flag f
  resetPending : t.su.lineResetPending = s.su.lineResetPending
  line : LineKeeps s.pli t.pli

namespace Calm

variable {free free' : List AttentionFlag} {u : State}

theorem refl (s : State) : Calm [] s s := ⟨Keeps.refl _ s, fun _ _ => rfl, rfl, rfl⟩

theorem trans (h : Calm free s t) (k : Calm free t u) : Calm free s u :=
  ⟨h.kept.trans k.kept, fun f hf => (k.flags f hf).trans (h.flags f hf), k.resetPending.trans h.resetPending,
    h.line.trans k.line⟩

theorem mono (h : Calm free s t) (sub : free ⊆ free') : Calm free' s t :=
  ⟨h.kept, fun f hf => h.flags f (fun hx => hf (sub hx)), h.resetPending, h.line⟩

/-- An operation that leaves the Status Unit as it is. -/
theorem of_su {l : List Part} (h : Keeps l s t) (hl : partsWithin l stopParts = true) (hsu : t.su = s.su)
    (line : LineKeeps s.pli t.pli) : Calm free s t :=
  ⟨h.mono hl, fun f _ => by rw [State.flag, hsu]; rfl, by rw [hsu], line⟩

theorem settle (h : Calm free s t) : Calm free s (settle t) :=
  h.trans (of_su (settle_keeps t) (by rfl) (settle_keeps t .su (by simp)) (lineKeeps_settle t))

theorem noReset (h : Calm free s t) (hp : s.su.lineResetPending = false) : t.su.lineResetPending = false :=
  h.resetPending.trans hp

end Calm

theorem executor_line_keeps (s : State) (x : PassExecutor) (l : PeerLine) :
    Keeps [.px, .pli] s { s with px := x, pli := l } :=
  (withPx_keeps s x).then (withPli_keeps (s.withPx x) l) (by rfl) (by rfl)

theorem raise_calm (f : AttentionFlag) (s : State) : Calm [f] s (raise f s) := by
  obtain ⟨l, he, hl⟩ := raise_eq f s
  refine ⟨(raise_keeps f s).mono (by rfl), fun g hg => ?_, by rw [he], by rw [he]; exact hl⟩
  rw [State.flag_raise, decide_eq_false (by simpa using hg), Bool.or_false]

theorem setExecutor_calm (x : ExecutorState) (s : State) : Calm [] s (setExecutor x s) := by
  obtain ⟨l, he, hl⟩ := setExecutor_eq x s
  exact Calm.of_su (setExecutor_keeps x s) (by rfl) (by rw [he]) (by rw [he]; exact hl)

/-- R89, R91, R92: a record closed with an end that stops the chain. -/
theorem closeStopping_calm (e : Decision) (h : s.su.lineResetPending = false) : Calm [.jointVoided] s (closeStopping e s) := by
  obtain ⟨l, he, hl⟩ := closeStopping_eq e s h
  refine ⟨?_, fun f hf => ?_, by rw [he], by rw [he]; exact hl⟩
  · rw [he]
    exact fun x hx => by cases x <;> simp_all [stopParts, Part.same]
  · rw [he]
    refine (flag_raisedIf _ _ _ _).trans ?_
    rw [decide_eq_false (by simpa using hf), Bool.and_false, Bool.or_false]
    rfl

theorem nextFetch_of_stopping {k : EndKind} (h : k.normal = false) (r : Option PassRecord) (i : Nat) :
    nextFetch k r i = none := by
  cases r with
  | none => rfl
  | some r => cases k <;> simp_all [nextFetch, EndKind.normal]

/-- R89: a stopping cause fetches no next record. -/
theorem closeRecord_of_stopping {e : Decision} (hd : s.px.decided = some e) (hn : e.kind.normal = false) :
    closeRecord s = closeStopping e s := by
  simp only [closeRecord, hd, nextFetch_of_stopping hn]

theorem fileSecondary_eq (d : Detail) (s : State) :
    fileSecondary d s = s.withPx { s.px with secondary := some (s.px.secondary.getD d) } := by
  unfold fileSecondary
  cases h : s.px.secondary with
  | none => rfl
  | some x =>
    rw [if_neg (by simp), Option.getD_some, ← h]
    rfl

theorem not_passed_of_not_stirring (h : s.hs.state ≠ .stirring) (e : OpenJoint) : ¬ Passed s e := fun hp => h hp.1

/-- R38, R115: the target withdrawn and a fault retract asked of a working head. -/
theorem retract_eq_of_working (h : s.hs.state.working = true) :
    ∃ l u, faultRetract (withdrawTarget s) = { s with tg := withdrawn s.tg, hs := faultHead s.hs, ju := u, pli := l }
      ∧ LineKeeps s.pli l ∧ LeftStirring s u := by
  obtain ⟨l, u, he, hl, hu⟩ := faultRetract_eq (withdrawTarget s) h
  refine ⟨l, u, ?_, hl, { hu with }⟩
  rw [he]
  simp [withdrawTarget, State.withTg, withdrawn]

/-- R115: a head that is not working is left alone. -/
theorem retract_eq_of_not_working (h : s.hs.state.working = false) :
    faultRetract (withdrawTarget s) = s.withTg (withdrawn s.tg) :=
  faultRetract_of_not_working (withdrawTarget s) h

/-- R86: the end is awaited where the carriage is not at rest. -/
theorem awaitEnd_eq_of_moving {e : Decision} (h : 0 < s.tg.v ∨ s.hs.state ≠ .parked) :
    ∃ l, awaitEnd e s = { s with px := executorAwaits e s, pli := l } ∧ LineKeeps s.pli l := by
  obtain ⟨l, he, hl⟩ := setExecutor_eq .awaitHeadEnd (decideEnd e s)
  refine ⟨l, ?_, hl⟩
  have hr : atRest (setExecutor .awaitHeadEnd (decideEnd e s)) = false := by
    rw [he]
    rcases h with h | h
    · simp [atRest, decideEnd, State.withPx, Nat.pos_iff_ne_zero.mp h]
    · simp [atRest, decideEnd, State.withPx, h]
  rw [awaitEnd, closeIfRest, hr, if_neg (by simp), he]
  rfl

/-- R84, R86: at rest the record closes at once. -/
theorem awaitEnd_eq_of_rest {e : Decision} (hv : s.tg.v = 0) (hh : s.hs.state = .parked) (hn : e.kind.normal = false) :
    awaitEnd e s = closeStopping e (setExecutor .awaitHeadEnd (decideEnd e s)) := by
  obtain ⟨l, he, hl⟩ := setExecutor_eq .awaitHeadEnd (decideEnd e s)
  have hr : atRest (setExecutor .awaitHeadEnd (decideEnd e s)) = true := by
    rw [he]
    simp [atRest, decideEnd, State.withPx, hv, hh]
  rw [awaitEnd, closeIfRest, hr, if_pos rfl]
  exact closeRecord_of_stopping (by rw [he]; rfl) hn

/-- What a chain that ends at once is left as: the record closed and the chain ended with `e` (R89, R91, R92). -/
structure EndsAtOnce (e : Decision) (s t : State) : Prop where
  travel : t.tg = withdrawn s.tg
  head : t.hs = s.hs
  station : t.su.station = .stopped
  joints : t.ju = afterClose e.kind s.ju
  executor : ∃ x y, (∀ p, s.tg.p = some p → x = p) ∧ t.px = executorAfter .stopped e s.px.secondary x y s
  calm : Calm [.jointVoided] s t

theorem positionReached_eq {p : Nat} (h : s.tg.p = some p) : positionReached s = p := by simp [positionReached, h]

theorem closeStopping_endsAtOnce {e : Decision} (hn : e.kind.normal = false) (h : s.su.lineResetPending = false) :
    EndsAtOnce e s (closeStopping e s) := by
  have calm := closeStopping_calm e h
  obtain ⟨l, he, hl⟩ := closeStopping_eq e s h
  simp only [hn, Bool.false_eq_true, if_false] at he
  refine ⟨by rw [he], by rw [he], by rw [he], by rw [he], ?_, calm⟩
  exact ⟨positionReached s, remainingDistance s, fun p hp => positionReached_eq hp, by rw [he]⟩

/-- What a chain that cannot end at once is left as: the target withdrawn, a working head on its way up, the executor at
`x` (R80, R86, R90). -/
structure AwaitsHead (x : PassExecutor) (s t : State) : Prop where
  travel : t.tg = withdrawn s.tg
  head : t.hs = if s.hs.state.working then faultHead s.hs else s.hs
  joints : LeftStirring s t.ju
  executor : t.px = x
  status : t.su = s.su
  freeCount : t.freeCount = s.freeCount
  calm : Calm [] s t

/-- The retract leaves the executor and the Status Unit alone. -/
theorem retract_awaits (s : State) : AwaitsHead s.px s (faultRetract (withdrawTarget s)) := by
  have kept : Keeps [.hs, .ju, .tg, .pli] s (faultRetract (withdrawTarget s)) :=
    (withdrawTarget_keeps s).then (faultRetract_keeps _) (by rfl) (by rfl)
  cases h : s.hs.state.working with
  | true =>
    obtain ⟨l, u, he, hl, hu⟩ := retract_eq_of_working h
    refine ⟨by rw [he], by rw [he, h]; rfl, by rw [he]; exact hu, by rw [he], by rw [he], by rw [he], ?_⟩
    exact Calm.of_su kept (by rfl) (by rw [he]) (by rw [he]; exact hl)
  | false =>
    have he := retract_eq_of_not_working h
    refine ⟨by rw [he]; rfl, by rw [he, h]; rfl, ?_, by rw [he]; rfl, by rw [he]; rfl, by rw [he]; rfl, ?_⟩
    · rw [he]
      exact leftStirring_refl (fun e _ => not_passed_of_not_stirring (fun hs => by rw [hs] at h; cases h) e)
    · exact Calm.of_su kept (by rfl) (by rw [he]; rfl) (by rw [he]; rfl)

/-- The executor takes note of the cause after the retract has been asked. -/
theorem AwaitsHead.withPx {x : PassExecutor} (h : AwaitsHead s.px s t) : AwaitsHead x s (t.withPx x) :=
  ⟨h.travel, h.head, h.joints, rfl, h.status, h.freeCount,
    h.calm.trans (Calm.of_su (withPx_keeps t x) (by rfl) rfl rfl)⟩

/-- R86: under a record that is not at rest the end is awaited. -/
theorem awaitEnd_awaits {e : Decision} (h : 0 < s.tg.v ∨ s.hs.state ≠ .parked) :
    AwaitsHead (executorAwaits e s) s (awaitEnd e (faultRetract (withdrawTarget s))) := by
  have ha := retract_awaits s
  have moving : 0 < (faultRetract (withdrawTarget s)).tg.v ∨ (faultRetract (withdrawTarget s)).hs.state ≠ .parked := by
    rw [ha.travel, ha.head]
    refine h.imp id (fun hs => ?_)
    split
    · exact fun hx => nomatch hx
    · exact hs
  obtain ⟨l, he, hl⟩ := awaitEnd_eq_of_moving (e := e) moving
  have hx : executorAwaits e (faultRetract (withdrawTarget s)) = executorAwaits e s := by
    unfold executorAwaits
    rw [ha.executor]
  rw [he, hx]
  refine ⟨ha.travel, ha.head, ha.joints, rfl, ha.status, ha.freeCount, ha.calm.trans ?_⟩
  exact Calm.of_su (executor_line_keeps _ _ _) (by rfl) rfl hl

/-- R86: under a record that is at rest with the head PARKED the chain ends at once. -/
theorem awaitEnd_endsAtOnce {e : Decision} (hn : e.kind.normal = false) (h : s.su.lineResetPending = false)
    (hv : s.tg.v = 0) (hh : s.hs.state = .parked) :
    EndsAtOnce e s (awaitEnd e (faultRetract (withdrawTarget s))) := by
  rw [retract_eq_of_not_working (by rw [hh]; rfl), awaitEnd_eq_of_rest (s := s.withTg (withdrawn s.tg)) hv hh hn]
  obtain ⟨l, he, hl⟩ := setExecutor_eq .awaitHeadEnd (decideEnd e (s.withTg (withdrawn s.tg)))
  rw [he]
  have before : Calm [.jointVoided] s { decideEnd e (s.withTg (withdrawn s.tg)) with
      px := { (decideEnd e (s.withTg (withdrawn s.tg))).px with state := .awaitHeadEnd }, pli := l } :=
    Calm.of_su (((withTg_keeps s (withdrawn s.tg)).mono (by rfl)).trans
      ((executor_line_keeps _ _ _).mono (m := [.tg, .px, .pli]) (by rfl))) (by rfl) rfl hl
  obtain ⟨h1, h2, h3, h4, ⟨x, y, hx, h5⟩, h6⟩ := closeStopping_endsAtOnce (s := { decideEnd e (s.withTg (withdrawn s.tg)) with
      px := { (decideEnd e (s.withTg (withdrawn s.tg))).px with state := .awaitHeadEnd }, pli := l }) hn h
  exact ⟨h1, h2, h3, h4, ⟨x, y, hx, h5⟩, before.trans h6⟩

/-- R83. -/
theorem normal_iff (e : Decision) : e.kind.normal = true ↔ NormalEnd e := by
  obtain ⟨k, d⟩ := e
  cases k <;> simp [EndKind.normal, NormalEnd]

theorem stoppingDecided_iff (s : State) : stoppingDecided s = true ↔ ∃ e, s.px.decided = some e ∧ ¬ NormalEnd e := by
  simp only [stoppingDecided, Option.any_eq_true, Bool.not_eq_true', ← normal_iff, Bool.not_eq_true]

/-- A WELD, DRY, MOVE or PAUSE is ACTIVE, or the next record of its chain is being fetched in continuation: the carriage may
be moving. -/
def UnderRecord (s : State) : Prop :=
  s.px.state = .active ∨ (s.px.state = .fetching ∧ s.px.role = .continuation)

/-- What a stopping cause with end `e` and secondary code `d` does to a chain under way, by executor state (R80, R82, R86, R87,
R90). -/
inductive CauseOutcome (e : Decision) (d : Detail) (s t : State) : Prop where
  | atOnce : EndsAtOnce e s t → s.px.state ≠ .awaitHeadEnd → s.px.state ≠ .halting →
      (UnderRecord s → s.tg.v = 0 ∧ s.hs.state = .parked) → CauseOutcome e d s t
  | slows : AwaitsHead (executorAwaits e s) s t → UnderRecord s → (0 < s.tg.v ∨ s.hs.state ≠ .parked) → CauseOutcome e d s t
  | replaces : AwaitsHead (executorAwaits e s) s t → s.px.state = .awaitHeadEnd →
      (∀ x, s.px.decided = some x → NormalEnd x) → CauseOutcome e d s t
  | files : AwaitsHead { s.px with secondary := some (s.px.secondary.getD d) } s t →
      (s.px.state = .halting ∨ s.px.state = .awaitHeadEnd ∧ ∃ x, s.px.decided = some x ∧ ¬ NormalEnd x) →
      CauseOutcome e d s t

theorem stoppingCause_outcome {e : Decision} {d : Detail} (hn : e.kind.normal = false)
    (h : s.su.lineResetPending = false) (hi : s.px.state ≠ .idle) (hs : s.px.state ≠ .stopped) :
    CauseOutcome e d s (stoppingCause e d s) := by
  have ha := retract_awaits s
  have filed : AwaitsHead { s.px with secondary := some (s.px.secondary.getD d) } s
      (fileSecondary d (faultRetract (withdrawTarget s))) := by
    rw [fileSecondary_eq, ha.executor]
    exact ha.withPx
  have running (hx : UnderRecord s) : CauseOutcome e d s (stoppingCause e d s) := by
    have waits : stoppingCause e d s = awaitEnd e (faultRetract (withdrawTarget s)) := by
      rcases hx with hx | ⟨hx, hr⟩
      · simp only [stoppingCause, hx]
      · simp only [stoppingCause, hx, hr]
    rw [waits]
    by_cases hm : 0 < s.tg.v ∨ s.hs.state ≠ .parked
    · exact .slows (awaitEnd_awaits hm) hx hm
    · simp only [not_or, Nat.not_lt, Nat.le_zero, not_not] at hm
      refine .atOnce (awaitEnd_endsAtOnce hn h hm.1 hm.2) ?_ ?_ (fun _ => hm)
      · rcases hx with hx | hx <;> simp [hx]
      · rcases hx with hx | hx <;> simp [hx]
  cases hx : s.px.state with
  | idle => exact absurd hx hi
  | stopped => exact absurd hx hs
  | waitSlot =>
    refine .atOnce ?_ (by simp [hx]) (by simp [hx]) (by simp [UnderRecord, hx])
    simp only [stoppingCause, hx]
    exact closeStopping_endsAtOnce hn h
  | fetching =>
    cases hr : s.px.role with
    | fresh =>
      refine .atOnce ?_ (by simp [hx]) (by simp [hx]) (by simp [UnderRecord, hx, hr])
      simp only [stoppingCause, hx, hr]
      exact closeStopping_endsAtOnce hn h
    | continuation => exact running (.inr ⟨hx, hr⟩)
  | active => exact running (.inl hx)
  | awaitHeadEnd =>
    have same : stoppingDecided (faultRetract (withdrawTarget s)) = stoppingDecided s := by
      unfold stoppingDecided
      rw [ha.executor]
    by_cases hd : stoppingDecided s = true
    · refine .files ?_ (.inr ⟨hx, (stoppingDecided_iff s).mp hd⟩)
      have files : stoppingCause e d s = fileSecondary d (faultRetract (withdrawTarget s)) := by
        simp only [stoppingCause, hx, same, hd, if_true]
      rw [files]
      exact filed
    · refine .replaces ?_ hx (fun x hdx => ?_)
      · have he : executorAwaits e s = { s.px with decided := some e } := by
          unfold executorAwaits
          rw [← hx]
        simp only [stoppingCause, hx, same, hd, Bool.false_eq_true, if_false, he, decideEnd, ha.executor]
        exact ha.withPx
      · by_contra hne
        exact hd ((stoppingDecided_iff s).mpr ⟨x, hdx, hne⟩)
  | halting =>
    refine .files ?_ (.inl hx)
    have files : stoppingCause e d s = fileSecondary d (faultRetract (withdrawTarget s)) := by
      simp only [stoppingCause, hx]
    rw [files]
    exact filed

end Sys2Proof.Machine

namespace Sys2Proof.Machine

variable {s t : State}

/-! ### A stopping cause in the words of the obligations -/

theorem CauseOutcome.calm {e : Decision} {d : Detail} (o : CauseOutcome e d s t) : Calm [.jointVoided] s t := by
  cases o with
  | atOnce h => exact h.calm
  | slows h => exact h.calm.mono (by simp)
  | replaces h => exact h.calm.mono (by simp)
  | files h => exact h.calm.mono (by simp)

/-- With no LINE RESET pending a stopping cause changes the chain's own parts only. -/
theorem stoppingCause_calm {e : Decision} (d : Detail) (hn : e.kind.normal = false) (h : s.su.lineResetPending = false) :
    Calm [.jointVoided] s (stoppingCause e d s) := by
  by_cases hi : s.px.state = .idle
  · rw [show stoppingCause e d s = s by simp only [stoppingCause, hi]]
    exact (Calm.refl s).mono (by simp)
  by_cases hs : s.px.state = .stopped
  · rw [show stoppingCause e d s = s by simp only [stoppingCause, hs]]
    exact (Calm.refl s).mono (by simp)
  exact (stoppingCause_outcome hn h hi hs).calm

/-- `u` is the state `s` after the cause's own action: the travel governor is `g` but for the travel phase, which the cause
closes in any case, and the listed flags may be set. -/
structure CauseReady (g : TravelGovernor) (flags : List AttentionFlag) (s u : State) : Prop where
  travel : withdrawn u.tg = withdrawn g
  position : u.tg.p = s.tg.p
  direction : u.tg.dir = s.tg.dir
  executor : u.px = s.px
  head : u.hs = s.hs
  joints : u.ju = s.ju
  freeCount : u.freeCount = s.freeCount
  flags : FlagsKeep flags s u

namespace CauseReady

variable {g : TravelGovernor} {flags : List AttentionFlag} {u : State}

theorem speed (b : CauseReady g flags s u) : u.tg.v = g.v := congrArg (fun x => x.v) b.travel

theorem passed_iff (b : CauseReady g flags s u) (e : OpenJoint) : Passed u e ↔ Passed s e := by
  simp only [Passed, b.head, b.joints, b.position, b.direction]

theorem leftStirring (b : CauseReady g flags s u) {j : JointUnit} (h : LeftStirring u j) : LeftStirring s j := by
  obtain ⟨h1, h2, h3, h4, h5, h6, h7⟩ := h
  simp only [b.joints, b.passed_iff] at h1 h2 h3 h4 h5 h6 h7
  exact ⟨h1, h2, h3, h4, h5, h6, h7⟩

theorem executorAwaits (b : CauseReady g flags s u) (e : Decision) :
    Sys2Proof.Machine.executorAwaits e u = Sys2Proof.Machine.executorAwaits e s := by
  unfold Sys2Proof.Machine.executorAwaits
  rw [b.executor]

theorem underRecord_iff (b : CauseReady g flags s u) : UnderRecord u ↔ UnderRecord s := by
  simp only [UnderRecord, b.executor]

end CauseReady

section
variable {g : TravelGovernor} {flags : List AttentionFlag} {u : State} {e : Decision} {d : Detail}

/-- A cause that ends the chain at once, as `CauseActs` has it. -/
theorem EndsAtOnce.causeActs (a : EndsAtOnce e u t) (b : CauseReady g flags s u) (ha : s.px.state ≠ .awaitHeadEnd)
    (hh : s.px.state ≠ .halting) (rest : UnderRecord s → g.v = 0 ∧ s.hs.state = .parked) : CauseActs e d g s.hs flags s t := by
  refine ⟨a.travel.trans b.travel, fun _ _ => ⟨a.head.trans b.head, a.station, a.joints.trans (by rw [b.joints]), ?_, ?_⟩, ?_⟩
  · intro f hf hv
    exact (a.calm.flags f (by simpa using hv)).trans (b.flags.1 f hf)
  · obtain ⟨x, y, hx, he⟩ := a.executor
    refine ⟨x, y, fun p hp => hx p (by rw [b.position, hp]), ?_⟩
    rw [he, executorAfter, executorAfter, b.executor]
  · rintro (⟨hu, hm⟩ | h | h)
    · obtain ⟨hv, hp⟩ := rest hu
      exact absurd hm (by simp [hv, hp])
    · exact absurd h ha
    · exact absurd h hh

/-- A cause whose end must wait, or that only files its code, as `CauseActs` has it. -/
theorem AwaitsHead.causeActs {x : PassExecutor} (a : AwaitsHead x u t) (b : CauseReady g flags s u)
    (moving : s.hs.state = .parked → s.px.state = .active → 0 < g.v)
    (waiting : UnderRecord s ∨ s.px.state = .awaitHeadEnd ∨ s.px.state = .halting)
    (underRecord : UnderRecord s → x = executorAwaits e s)
    (normal : ∀ c, s.px.decided = some c → s.px.state = .awaitHeadEnd → NormalEnd c → x = executorAwaits e s)
    (stopping : ∀ c, s.px.decided = some c → s.px.state = .awaitHeadEnd → ¬ NormalEnd c →
      x = { s.px with secondary := some (s.px.secondary.getD d) })
    (halting : s.px.state = .halting → x = { s.px with secondary := some (s.px.secondary.getD d) }) :
    CauseActs e d g s.hs flags s t := by
  have notAtOnce : ¬ (s.px.state = .waitSlot ∨ (s.px.state = .fetching ∧ s.px.role = .fresh)) := by
    rintro (h | ⟨h, hr⟩) <;> rcases waiting with (hw | ⟨hw, hc⟩) | hw | hw <;> simp_all
  refine ⟨a.travel.trans b.travel, fun hp hs => ?_, fun hs => ?_⟩
  · rcases hs with hs | hs | ⟨hs, hv⟩
    · exact absurd (.inl hs) notAtOnce
    · exact absurd (.inr hs) notAtOnce
    · exact absurd (moving hp hs) (by simp [hv])
  · have head := a.head
    rw [b.head] at head
    refine ⟨a.freeCount.trans b.freeCount, ⟨fun f hf => (a.calm.flags f (by simp)).trans (b.flags.1 f hf), ?_⟩,
      b.leftStirring a.joints, fun hw => by rw [head, hw]; rfl, fun hw => by rw [head, hw]; rfl, fun hx => ?_, ?_, ?_, ?_⟩
    · rw [a.status]
      exact b.flags.2
    · rw [a.executor]
      refine underRecord (hx.imp id (fun hf => ⟨hf, ?_⟩))
      cases hr : s.px.role with
      | fresh => exact absurd (.inr ⟨hf, hr⟩) notAtOnce
      | continuation => rfl
    · rw [a.executor]; exact normal
    · rw [a.executor]; exact stopping
    · rw [a.executor]; exact halting

/-- R80, R82, R86, R87, R90: each outcome of a stopping cause is the one `CauseActs` states. -/
theorem CauseOutcome.causeActs (o : CauseOutcome e d u t) (b : CauseReady g flags s u) :
    CauseActs e d g s.hs flags s t := by
  have hpx := b.executor
  cases o with
  | atOnce a ha hh rest =>
    rw [b.underRecord_iff, b.speed, b.head] at rest
    exact a.causeActs b (by rw [← hpx]; exact ha) (by rw [← hpx]; exact hh) rest
  | slows a hu hm =>
    rw [b.underRecord_iff] at hu
    rw [b.speed, b.head] at hm
    rw [b.executorAwaits] at a
    refine a.causeActs b (fun hp _ => hm.resolve_right (fun h => h hp)) (.inl hu) (fun _ => rfl) ?_ ?_ ?_
    · intro _ _ _ _; rfl
    · intro _ _ h; rcases hu with hu | ⟨hu, _⟩ <;> rw [h] at hu <;> cases hu
    · intro h; rcases hu with hu | ⟨hu, _⟩ <;> rw [h] at hu <;> cases hu
  | replaces a hw hd =>
    rw [hpx] at hw hd
    rw [b.executorAwaits] at a
    refine a.causeActs b ?_ (.inr (.inl hw)) (fun _ => rfl) (fun _ _ _ _ => rfl) (fun c hc _ hn => absurd (hd c hc) hn) ?_
    · intro _ h; rw [h] at hw; cases hw
    · intro h; rw [h] at hw; cases hw
  | files a hw =>
    rw [hpx] at a hw
    refine a.causeActs b ?_ ?_ ?_ ?_ (fun _ _ _ _ => rfl) (fun _ => rfl)
    · intro _ h; rcases hw with hw | ⟨hw, _⟩ <;> rw [h] at hw <;> cases hw
    · exact .inr (hw.symm.imp (·.1) id)
    · rintro (h | ⟨h, _⟩) <;> rcases hw with hw | ⟨hw, _⟩ <;> rw [h] at hw <;> cases hw
    · intro c hc h hn
      rcases hw with hw | ⟨_, x, hx, hne⟩
      · rw [h] at hw; cases hw
      · rw [hc] at hx
        exact absurd (Option.some.inj hx ▸ hn) hne

end

/-! ### The rank conflict check (R16 to R18) -/

theorem viewOfEntry_live_iff (o : Option NeighbourEntry) (q : Nat) :
    (∃ dir speed age, viewOfEntry o = .live q dir speed age)
      ↔ ∃ e c, o = some e ∧ e.liveness = .live ∧ e.content = some c ∧ c.position = some q := by
  constructor
  · rintro ⟨dir, speed, age, h⟩
    unfold viewOfEntry at h
    split at h
    · rename_i e
      split at h
      · rename_i c hl hc
        split at h
        · rename_i x hp
          cases h
          exact ⟨e, c, rfl, hl, hc, hp⟩
        · cases h
      · cases h
    · cases h
  · rintro ⟨e, c, rfl, hl, hc, hp⟩
    exact ⟨c.direction, c.speed, e.age, by simp only [viewOfEntry, hl, hc, hp]⟩

theorem livePosition_iff (s : State) (o : Option Rank) (q : Nat) :
    livePosition s o = some q ↔ ∃ r, o = some r ∧ LiveAt s r q := by
  cases o with
  | none => simp [livePosition]
  | some r =>
    simp only [Option.some.injEq, LiveAt, ← viewOfEntry_live_iff, exists_eq_left']
    unfold livePosition
    cases h : viewOfEntry (entryOf s.nt r) with
    | none => simp [h]
    | silent => simp [h]
    | live x _ _ _ => simp [h]

/-- R16: the check finds what `Conflict` states, where p is known. -/
theorem rankConflict_iff (s : State) : rankConflict s = true ↔ ∃ p, s.tg.p = some p ∧ Conflict s p := by
  unfold rankConflict
  cases h : s.tg.p with
  | none => simp
  | some p =>
    simp only [Bool.or_eq_true, Option.any_eq_true, decide_eq_true_eq, livePosition_iff, Option.some.injEq, exists_eq_left',
      Conflict]
    constructor
    · rintro (⟨q, ⟨r, hr, hl⟩, hq⟩ | ⟨q, ⟨r, hr, hl⟩, hq⟩)
      · exact .inl ⟨r, q, hr, hl, hq⟩
      · exact .inr ⟨r, q, hr, hl, hq⟩
    · rintro (⟨r, q, hr, hl, hq⟩ | ⟨r, q, hr, hl, hq⟩)
      · exact .inl ⟨q, ⟨r, hr, hl⟩, hq⟩
      · exact .inr ⟨q, ⟨r, hr, hl⟩, hq⟩

/-- A conflict is a matter of the table and the own rank. -/
theorem conflict_congr (hn : t.nt = s.nt) (ho : t.ownRank = s.ownRank) (p : Nat) : Conflict t p ↔ Conflict s p := by
  simp only [Conflict, LiveAt, hn, ho]

theorem conflictDecided_iff (s : State) : conflictDecided s = true ↔ ∃ x, s.px.decided = some x ∧ x.kind = .rankConflict := by
  simp [conflictDecided, Option.any_eq_true]

theorem immediateStop_calm (s : State) : Calm [] s (immediateStop s) :=
  Calm.of_su (immediateStop_keeps s) (by rfl) rfl rfl

/-- With no LINE RESET pending a rank conflict changes the chain's own parts only. -/
theorem conflictStop_calm (d : Detail) (h : s.su.lineResetPending = false) : Calm [.jointVoided] s (conflictStop d s) := by
  simp only [conflictStop]
  split
  · split
    · exact (immediateStop_calm s).mono (by simp)
    · exact ((immediateStop_calm s).mono (by simp)).trans (stoppingCause_calm d rfl h)
  · exact (Calm.refl s).mono (by simp)

theorem checkRankConflict_calm (h : s.su.lineResetPending = false) :
    Calm [.rankConflict, .jointVoided] s (checkRankConflict s) := by
  unfold checkRankConflict
  split
  · have raised := raise_calm .rankConflict s
    exact (raised.mono (by simp)).trans ((conflictStop_calm _ (raised.noReset h)).mono (by simp))
  · exact (Calm.refl s).mono (by simp)

/-- The table is kept by all that the chain does with no LINE RESET pending. -/
theorem Calm.nt {free : List AttentionFlag} (h : Calm free s t) : t.nt = s.nt := h.kept .nt (by simp [stopParts])

theorem Calm.ownRank {free : List AttentionFlag} (h : Calm free s t) : t.ownRank = s.ownRank :=
  h.kept .ownRank (by simp [stopParts])

theorem Keeps.of_subset {l m : List Part} (h : Keeps l s t) (sub : l ⊆ m) : Keeps m s t :=
  fun x hx => h x (fun hl => hx (sub hl))

theorem CauseActs.settle {e : Decision} {d : Detail} {g : TravelGovernor} {h : HeadSequencer} {flags : List AttentionFlag}
    (c : CauseActs e d g h flags s t) : CauseActs e d g h flags s (settle t) := by
  obtain ⟨l, he, _⟩ := settle_eq t
  rw [he]
  exact c

/-- R17, R87: what is left by a rank conflict that meets the state `u`, which differs from `s` in the table and the flags
listed. -/
theorem conflictStop_acts {d : Detail} {parts : List Part} {flags : List AttentionFlag} {line : PeerLine} {u : State}
    (k : Keeps (parts ++ [.su, .pli]) s u) (onlyTable : parts ⊆ [.nt]) (f : FlagsKeep flags s u) (l : LineKeeps line u.pli)
    (h : s.su.lineResetPending = false) : ConflictActs d parts flags line s (settle (conflictStop d u)) := by
  have station : u.su.station = s.su.station := (congrArg (fun x => x.station) f.2 : _)
  have pending : u.su.lineResetPending = false := (congrArg (fun x => x.lineResetPending) f.2).trans h
  have same (x : Part) (hn : x ≠ .nt) (hs : x ≠ .su) (hp : x ≠ .pli) : x.same s u :=
    k x (fun hx => by
      rcases List.mem_append.mp hx with hx | hx
      · exact hn (by simpa using onlyTable hx)
      · simp [hs, hp] at hx)
  have tg : u.tg = s.tg := same .tg (by simp) (by simp) (by simp)
  have px : u.px = s.px := same .px (by simp) (by simp) (by simp)
  have after {m : List Part} {v : State} (hv : Keeps m u v) (sub : m ⊆ parts ++ m) (suM : [.su, .pli] ⊆ m) :
      Keeps (parts ++ m) s (settle v) :=
    ((k.of_subset (List.append_subset.mpr ⟨by simp, fun x hx => sub (suM hx)⟩)).trans (hv.of_subset sub)).trans
      ((settle_keeps v).of_subset (by
        intro x hx
        exact sub (suM (by simp_all))))
  have calm := conflictStop_calm d pending
  refine ⟨l.trans calm.settle.line, fun hr => ?_, fun hr hd => ?_, fun hr hd hi hs => ?_⟩
  · have same : conflictStop d u = u := if_neg (by rw [station]; exact hr)
    obtain ⟨x, hx, _⟩ := settle_eq u
    rw [same]
    refine ⟨after (Keeps.refl _ u) (by simp) (by simp), ?_⟩
    rw [hx]
    exact f
  · have stops : conflictStop d u = immediateStop u := by
      unfold conflictStop
      rw [if_pos (station.trans hr), if_pos]
      rw [conflictDecided_iff]
      exact px ▸ hd
    rw [stops]
    refine ⟨after ((immediateStop_keeps u).of_subset (by simp)) (by simp) (by simp), ?_, ?_⟩
    · obtain ⟨x, hx, _⟩ := settle_eq (immediateStop u)
      rw [hx]
      exact f
    · obtain ⟨x, hx, _⟩ := settle_eq (immediateStop u)
      rw [hx, ← tg]
      rfl
  · have causes : conflictStop d u = stoppingCause ⟨.rankConflict, some d⟩ d (immediateStop u) := by
      unfold conflictStop
      rw [if_pos (station.trans hr), if_neg]
      rw [conflictDecided_iff]
      rintro ⟨x, hx, hk⟩
      exact hd x (px ▸ hx) hk
    rw [causes] at calm ⊢
    refine ⟨after (m := [.tg, .px, .hs, .ju, .su, .freeCount, .pli]) calm.kept (by simp) (by simp), CauseActs.settle ?_⟩
    refine (stoppingCause_outcome (s := immediateStop u) (e := ⟨.rankConflict, some d⟩) rfl pending
      (by rw [← px] at hi; exact hi) (by rw [← px] at hs; exact hs)).causeActs ?_
    have hs' : u.hs = s.hs := same .hs (by simp) (by simp) (by simp)
    have ju : u.ju = s.ju := same .ju (by simp) (by simp) (by simp)
    have free : u.freeCount = s.freeCount := same .freeCount (by simp) (by simp) (by simp)
    refine ⟨?_, congrArg (fun x => x.p) tg, congrArg (fun x => x.dir) tg, px, hs', ju, free, f⟩
    rw [← tg]
    rfl

end Sys2Proof.Machine

namespace Sys2Proof.Machine

variable {s t : State}

/-! ### The ageing of the table (R9, R10) -/

theorem raise_flagsKeep (f : AttentionFlag) (s : State) : FlagsKeep [f] s (raise f s) := by
  obtain ⟨l, he, _⟩ := raise_eq f s
  refine ⟨fun g hg => (raise_calm f s).flags g hg, ?_⟩
  rw [he]

theorem raiseIf_flagsKeep (b : Bool) (f : AttentionFlag) (s : State) : FlagsKeep [f] s (raiseIf b f s) := by
  cases b
  · exact ⟨fun _ _ => rfl, rfl⟩
  · exact raise_flagsKeep f s

theorem lineKeeps_raiseIf (b : Bool) (f : AttentionFlag) (s : State) : LineKeeps s.pli (raiseIf b f s).pli := by
  obtain ⟨l, he, hl⟩ := raiseIf_eq b f s
  rw [he]
  exact hl

theorem FlagsKeep.trans {a b c : List AttentionFlag} {u : State} (h : FlagsKeep a s t) (k : FlagsKeep b t u) (ha : a ⊆ c)
    (hb : b ⊆ c) : FlagsKeep c s u := by
  refine ⟨fun f hf => (k.1 f (fun hx => hf (hb hx))).trans (h.1 f (fun hx => hf (ha hx))), ?_⟩
  obtain ⟨_, h2⟩ := h
  obtain ⟨_, k2⟩ := k
  rw [← h2, ← k2]

theorem FlagsKeep.settle {a : List AttentionFlag} (h : FlagsKeep a s t) : FlagsKeep a s (settle t) := by
  obtain ⟨l, he, _⟩ := settle_eq t
  rw [he]
  exact h

theorem FlagsKeep.lineResetPending {a : List AttentionFlag} (h : FlagsKeep a s t) :
    t.su.lineResetPending = s.su.lineResetPending := congrArg (fun x => x.lineResetPending) h.2

theorem isAdjacent_iff (s : State) (r : Rank) : isAdjacent s r = true
    ↔ upperNeighbour s.ownRank s.nt.view = some r ∨ lowerNeighbour s.ownRank s.nt.view = some r := by
  simp [isAdjacent]

theorem countUp_eq_oneOn (n : Nat) : countUp n = oneOn n := by
  unfold countUp oneOn Config.countTop
  split <;> omega

theorem goesSilent_iff (stale : Nat) (e : NeighbourEntry) :
    goesSilent stale e = true ↔ e.liveness = .live ∧ stale < oneOn e.age := by
  simp only [goesSilent, Bool.and_eq_true, beq_iff_eq, decide_eq_true_eq, countUp_eq_oneOn]

theorem ageTable_nt (s : State) :
    (ageTable s).nt = { s.nt with entries := s.nt.entries.map (ageEntry s.constants.staleLimit) } :=
  raiseIf_keeps _ _ _ .nt (by simp)

theorem ageTable_flagsKeep (s : State) : FlagsKeep [.neighbourSilent] s (ageTable s) := raiseIf_flagsKeep _ _ (s.withNt _)

theorem lineKeeps_ageTable (s : State) : LineKeeps s.pli (ageTable s).pli :=
  lineKeeps_raiseIf _ _ (s.withNt { s.nt with entries := s.nt.entries.map (ageEntry s.constants.staleLimit) })

/-- R10: NEIGHBOUR_SILENT is set where an adjacent entry goes SILENT in RUNNING. -/
theorem ageTable_flag_iff (s : State) : (ageTable s).flag .neighbourSilent = true
    ↔ s.flag .neighbourSilent = true ∨ (s.su.station = .running ∧ ∃ e ∈ s.nt.entries, e.liveness = .live
        ∧ s.constants.staleLimit < oneOn e.age
        ∧ (upperNeighbour s.ownRank s.nt.view = some e.rank ∨ lowerNeighbour s.ownRank s.nt.view = some e.rank)) := by
  unfold ageTable
  rw [State.flag_raiseIf]
  simp only [decide_true, Bool.and_true, Bool.or_eq_true, Bool.and_eq_true, beq_iff_eq, List.any_eq_true, goesSilent_iff,
    isAdjacent_iff, and_assoc]
  rfl

/-- R9: the entry of a rank after the ageing is that rank's entry, aged. -/
theorem entryOf_aged (stale : Nat) (n : NeighbourTable) (r : Rank) :
    entryOf { n with entries := n.entries.map (ageEntry stale) } r = (entryOf n r).map (ageEntry stale) := by
  simp only [entryOf, List.find?_map]
  rfl

theorem ageEntry_of_goesSilent {stale : Nat} {e : NeighbourEntry} (hl : e.liveness = .live) (ha : stale < oneOn e.age) :
    ageEntry stale e = { e with age := oneOn e.age, liveness := .silent } := by
  rw [ageEntry, countUp_eq_oneOn, if_pos ⟨hl, ha⟩]

theorem exec_ageing (s : State) : exec .neighbourTableAgeing s = .next (settle (ageingEvent s)) := rfl

theorem exec_entryGoesSilent (r : Rank) (s : State) : exec (.entryGoesSilent r) s
    = .next (if (entryOf s.nt r).any (goesSilent s.constants.staleLimit) then settle (ageingEvent s) else s) := rfl

/-- What follows the ageing in its event. -/
theorem ageing_calm (h : s.su.lineResetPending = false) :
    Calm [.rankConflict, .jointVoided] (ageTable s) (settle (ageingEvent s)) :=
  (checkRankConflict_calm ((ageTable_flagsKeep s).lineResetPending.trans h)).settle

theorem ageing_nt (h : s.su.lineResetPending = false) : (settle (ageingEvent s)).nt
    = { s.nt with entries := s.nt.entries.map (ageEntry s.constants.staleLimit) } :=
  (ageing_calm h).nt.trans (ageTable_nt s)

/-- The check judges the table as the event leaves it. -/
theorem ageing_conflict_iff (h : s.su.lineResetPending = false) :
    rankConflict (ageTable s) = true ↔ ∃ p, s.tg.p = some p ∧ Conflict (settle (ageingEvent s)) p := by
  have calm := ageing_calm h
  rw [rankConflict_iff, show (ageTable s).tg = s.tg from ageTable_keeps s .tg (by simp)]
  simp only [conflict_congr calm.nt calm.ownRank]

/-- The ageing event with no conflict found. -/
theorem ageing_quiet (h : rankConflict (ageTable s) = false) : ageingEvent s = ageTable s := by
  simp [ageingEvent, checkRankConflict, h]

/-- The ageing event with a conflict found. -/
theorem ageing_conflict (h : rankConflict (ageTable s) = true) :
    ageingEvent s = conflictStop .neighbourOrder (raise .rankConflict (ageTable s)) := by
  simp [ageingEvent, checkRankConflict, h]

/-- R9, R10: NEIGHBOUR_TABLE_AGEING. -/
theorem ageing_effect (h : s.su.lineResetPending = false) :
    let t := settle (ageingEvent s)
    t.nt.view = s.nt.view ∧ t.nt.entries.length = s.nt.entries.length
    ∧ (∀ (i : Nat) (e : NeighbourEntry), s.nt.entries[i]? = some e → t.nt.entries[i]? = some { e with
        age := oneOn e.age
        liveness := if e.liveness = .live ∧ s.constants.staleLimit < oneOn e.age then .silent else e.liveness })
    ∧ (t.flag .neighbourSilent = true ↔ s.flag .neighbourSilent = true ∨ (s.su.station = .running
        ∧ ∃ e ∈ s.nt.entries, e.liveness = .live ∧ s.constants.staleLimit < oneOn e.age
          ∧ (upperNeighbour s.ownRank s.nt.view = some e.rank ∨ lowerNeighbour s.ownRank s.nt.view = some e.rank)))
    ∧ ((∀ p, s.tg.p = some p → ¬ Conflict t p) →
        Keeps [.nt, .su, .pli] s t ∧ FlagsKeep [.neighbourSilent] s t ∧ LineKeeps s.pli t.pli) := by
  refine ⟨by rw [ageing_nt h], by rw [ageing_nt h, List.length_map], fun i e hi => ?_, ?_, fun hno => ?_⟩
  · rw [ageing_nt h]
    simp only [List.getElem?_map, hi, Option.map_some, ageEntry, countUp_eq_oneOn]
  · rw [(ageing_calm h).flags _ (by simp)]
    exact ageTable_flag_iff s
  · have quiet : rankConflict (ageTable s) = false := by
      refine Bool.eq_false_iff.mpr (fun hc => ?_)
      obtain ⟨p, hp, hc⟩ := (ageing_conflict_iff h).mp hc
      exact hno p hp hc
    rw [ageing_quiet quiet]
    exact ⟨(settle_keeps _).via (ageTable_keeps s) (by rfl), (ageTable_flagsKeep s).settle,
      (lineKeeps_ageTable s).trans (lineKeeps_settle _)⟩

/-- Settles O22. -/
theorem entriesAge : Obligations.EntriesAge := by
  refine ⟨fun s h => ⟨_, exec_ageing s, ageing_effect h⟩, fun s r e h he hl ha => ?_, fun s r hquiet => ?_⟩
  · have silent : (entryOf s.nt r).any (goesSilent s.constants.staleLimit) = true := by
      rw [he]
      exact (goesSilent_iff _ e).mpr ⟨hl, ha⟩
    refine ⟨_, by rw [exec_entryGoesSilent, if_pos silent], exec_ageing s, ?_⟩
    rw [ageing_nt h, entryOf_aged, he, Option.map_some, ageEntry_of_goesSilent hl ha]
  · rw [exec_entryGoesSilent, if_neg]
    rw [Option.any_eq_true]
    rintro ⟨e, he, hs⟩
    obtain ⟨hl, ha⟩ := (goesSilent_iff _ e).mp hs
    exact (hquiet e he).elim (fun h => h hl) (fun h => absurd ha (Nat.not_lt.mpr h))

end Sys2Proof.Machine

namespace Sys2Proof.Machine

variable {s t : State}

/-! ### A held record's start with no LINE RESET pending (R81, R82, R101) -/

theorem setJoints_calm (u : JointUnit) (s : State) : Calm [] s (setJoints u s) := by
  obtain ⟨l, he, hl⟩ := setJoints_eq u s
  exact Calm.of_su (setJoints_keeps u s) (by rfl) (by rw [he]) (by rw [he]; exact hl)

theorem spinUp_calm (w : WeldParams) (s : State) : Calm [] s (spinUp w s) := by
  obtain ⟨l, he, hl⟩ := enterHead_eq .spinningUp s
  exact Calm.of_su (spinUp_keeps w s) (by rfl) (spinUp_keeps w s .su (by simp)) (by rw [spinUp, he]; exact hl)

theorem giveTarget_calm (m : MotionTarget) (d : Direction) (b : Bool) (s : State) : Calm [] s (giveTarget m d b s) :=
  Calm.of_su (giveTarget_keeps m d b s) (by rfl) rfl rfl

theorem continueWeld_calm (a b : Nat) (c : Bool) (s : State) : Calm [] s (continueWeld a b c s) :=
  Calm.of_su (continueWeld_keeps a b c s) (by rfl) (continueWeld_keeps a b c s .su (by simp))
    (by rw [show (continueWeld a b c s).pli = s.pli from continueWeld_keeps a b c s .pli (by simp)]; rfl)

theorem startPause_calm (r : PassRecord) (s : State) : Calm [] s (startPause r s) :=
  Calm.of_su (startPause_keeps r s) (by rfl) rfl rfl

theorem clampOpen_calm (h : s.su.lineResetPending = false) : Calm [.fault, .jointVoided] s (clampOpen s) :=
  have raised := raise_calm .fault s
  (raised.mono (by simp)).trans ((closeStopping_calm _ (raised.noReset h)).mono (by simp))

theorem startFreshWeld_calm (r : PassRecord) (h : s.su.lineResetPending = false) :
    Calm [.fault, .jointVoided] s (startFreshWeld r s) := by
  have prepared : Calm [] s (startJoints r (weldDirection .fresh s.tg.dir r)
      (giveTarget ⟨.weld, r.endPos, r.rate⟩ (travelDirection r.endPos s) false s)) :=
    (giveTarget_calm _ _ _ s).trans (setJoints_calm _ _)
  have wide := prepared.mono (free' := [.fault, .jointVoided]) (by simp)
  simp only [startFreshWeld]
  split
  · exact wide.trans ((spinUp_calm _ _).mono (by simp))
  · split
    · exact wide.trans (clampOpen_calm (prepared.noReset h))
    · exact wide

theorem handRecordOn_calm (r : PassRecord) (h : s.su.lineResetPending = false) :
    Calm [.fault, .jointVoided] s (handRecordOn r s) := by
  have active := setExecutor_calm .active s
  have wide := active.mono (free' := [.fault, .jointVoided]) (by simp)
  simp only [handRecordOn]
  split
  · exact (closeStopping_calm _ h).mono (by simp)
  · split
    · exact wide.trans ((giveTarget_calm _ _ _ _).mono (by simp))
    · exact wide.trans ((giveTarget_calm _ _ _ _).mono (by simp))
    · exact wide.trans ((startPause_calm r _).mono (by simp))
    · split
      · exact wide.trans (startFreshWeld_calm r (active.noReset h))
      · exact wide.trans ((((giveTarget_calm _ _ _ _).trans (setJoints_calm _ _)).trans (continueWeld_calm _ _ _ _)).mono
          (by simp))
    · exact wide

theorem startHeld_calm (h : s.su.lineResetPending = false) : Calm [.fault, .jointVoided] s (startHeld s) := by
  unfold startHeld
  split
  · unfold startRecord
    split
    · exact (setExecutor_calm _ s).mono (by simp)
    · exact handRecordOn_calm _ h
  · exact (Calm.refl s).mono (by simp)

/-! ### A beacon reaches the table and the joints (R6, R7, R129, R132) -/

theorem jointsFiled_calm (r : Rank) (c : BeaconContent) (h : s.su.lineResetPending = false) :
    Calm [.fault, .jointVoided] s (jointsFiled r c s) := by
  have set := setJoints_calm (filingEvaluates r c.openList (removeJoints r c.closedList s.ju)) s
  simp only [jointsFiled]
  split
  · exact (set.mono (by simp)).trans (startHeld_calm (set.noReset h))
  · exact set.mono (by simp)

theorem removedBy_of_other {r : Rank} {closed : List Nat} {e : OpenJoint} (h : e.partner ≠ r) : removedBy r closed e = false := by
  simp [removedBy, h]

/-- R129: a sender that is the partner of no entry removes none. -/
theorem removeJoints_of_other {r : Rank} {closed : List Nat} {u : JointUnit} (h : ∀ e ∈ u.openList, e.partner ≠ r) :
    removeJoints r closed u = u := by
  have none : ∀ e ∈ u.openList, removedBy r closed e = false := fun e he => removedBy_of_other (h e he)
  have all : u.openList.filter (fun e => !removedBy r closed e) = u.openList :=
    List.filter_eq_self.mpr (fun e he => by simp [none e he])
  have lead : u.openList.any (fun e => removedBy r closed e && isLead u e) = false :=
    List.any_eq_false.mpr (fun e he => by simp [none e he])
  simp [removeJoints, all, lead]

/-- R132: a sender that is not the partner of the awaited joint does not evaluate it. -/
theorem filingEvaluates_of_other {r : Rank} {reports : List JointReport} {u : JointUnit}
    (h : ∀ a, u.awaited = some a → a.partner ≠ r) : filingEvaluates r reports u = u := by
  have same : u.awaited.map (fun a => if a.partner = r then evaluateJoint reports a else a) = u.awaited := by
    cases ha : u.awaited with
    | none => rfl
    | some a => simp [h a ha]
  simp [filingEvaluates, same]

/-- A beacon from a rank that has no joint with this station leaves the Joint Unit alone. -/
theorem jointsFiled_of_other {r : Rank} {c : BeaconContent} (ho : ∀ e ∈ s.ju.openList, e.partner ≠ r)
    (ha : ∀ a, s.ju.awaited = some a → a.partner ≠ r) : jointsFiled r c s = s := by
  have none : s.ju.openList.any (removedBy r c.closedList) = false :=
    List.any_eq_false.mpr (fun e he => by simp [removedBy_of_other (ho e he)])
  simp only [jointsFiled, none, Bool.false_eq_true, if_false]
  rw [removeJoints_of_other ho, filingEvaluates_of_other ha]
  exact if_pos rfl

theorem fileBeacon_nt (r : Rank) (c : BeaconContent) (s : State) : (fileBeacon r c s).nt
    = { view := s.nt.view ||| (1#8 <<< r.val), entries := s.nt.entries.map (fileEntry r c) } :=
  raiseIf_keeps _ _ _ .nt (by simp)

theorem fileBeacon_flagsKeep (r : Rank) (c : BeaconContent) (s : State) : FlagsKeep [.stranger] s (fileBeacon r c s) :=
  raiseIf_flagsKeep _ _ (s.withNt _)

theorem lineKeeps_fileBeacon (r : Rank) (c : BeaconContent) (s : State) : LineKeeps s.pli (fileBeacon r c s).pli :=
  lineKeeps_raiseIf _ _
    (s.withNt { view := s.nt.view ||| (1#8 <<< r.val), entries := s.nt.entries.map (fileEntry r c) })

theorem fileBeacon_flag (r : Rank) (c : BeaconContent) (s : State) :
    (fileBeacon r c s).flag .stranger = (s.flag .stranger || !inView s.nt.view r) := by
  unfold fileBeacon
  rw [State.flag_raiseIf, decide_eq_true rfl, Bool.and_true]
  rfl

theorem fileBeacon_joints (r : Rank) (c : BeaconContent) (s : State) : (fileBeacon r c s).ju = s.ju :=
  fileBeacon_keeps r c s .ju (by simp)

/-- What follows the filing in the beacon's event. -/
theorem neighbourBeacon_calm (r : Rank) (c : BeaconContent) (h : s.su.lineResetPending = false) :
    Calm [.fault, .jointVoided, .rankConflict] (fileBeacon r c s) (settle (neighbourBeacon r c s)) := by
  have joints := jointsFiled_calm r c ((fileBeacon_flagsKeep r c s).lineResetPending.trans h)
  have wide := joints.mono (free' := [.fault, .jointVoided, .rankConflict]) (by simp)
  refine Calm.settle ?_
  simp only [neighbourBeacon]
  split
  · exact wide.trans ((checkRankConflict_calm (joints.noReset ((fileBeacon_flagsKeep r c s).lineResetPending.trans h))).mono
      (by simp))
  · exact wide

/-- A beacon from a rank that has no joint with this station: the filing, then the check of an adjacent rank. -/
theorem neighbourBeacon_of_other {r : Rank} {c : BeaconContent} (ho : ∀ e ∈ s.ju.openList, e.partner ≠ r)
    (ha : ∀ a, s.ju.awaited = some a → a.partner ≠ r) : neighbourBeacon r c s
      = if isAdjacent (fileBeacon r c s) r then checkRankConflict (fileBeacon r c s) else fileBeacon r c s := by
  have same : jointsFiled r c (fileBeacon r c s) = fileBeacon r c s :=
    jointsFiled_of_other (by rw [fileBeacon_joints]; exact ho) (by rw [fileBeacon_joints]; exact ha)
  simp only [neighbourBeacon, same]

/-- The check judges the table as the event leaves it. -/
theorem filing_conflict_iff (r : Rank) (c : BeaconContent) (h : s.su.lineResetPending = false) :
    rankConflict (fileBeacon r c s) = true ↔ ∃ p, s.tg.p = some p ∧ Conflict (settle (neighbourBeacon r c s)) p := by
  have calm := neighbourBeacon_calm r c h
  rw [rankConflict_iff, show (fileBeacon r c s).tg = s.tg from fileBeacon_keeps r c s .tg (by simp)]
  simp only [conflict_congr calm.nt calm.ownRank]

/-! ### The beacon's event -/

/-- A well-formed beacon from another rank reaches the table. -/
theorem exec_beacon_of_other {r : Rank} {dest : Byte} {payload : List Byte} (htaken : BeaconTaken payload s)
    (hm : ¬ Malformed payload) (hr : r ≠ s.ownRank) : exec (.beacon (beaconFrame r dest payload)) s
      = .next (settle (neighbourBeacon r (beaconFields payload).content (receptionEnds s))) := by
  show Host.Outcome.next (onFrame _ _ _ _) = _
  rw [onFrame_of_beaconTaken htaken]
  simp only [beaconTaken, (wellFormed_iff payload).mpr hm, if_true, Fin.ofNat_val_eq_self]
  rw [if_neg (show r ≠ (receptionEnds s).ownRank from hr)]

/-- R8: a well-formed beacon that bears the own rank is not filed. -/
theorem exec_beacon_of_own {dest : Byte} {payload : List Byte} (htaken : BeaconTaken payload s)
    (hm : ¬ Malformed payload) : exec (.beacon (beaconFrame s.ownRank dest payload)) s
      = .next (settle (conflictStop .duplicateRank (raise .duplicateRank (receptionEnds s)))) := by
  show Host.Outcome.next (onFrame _ _ _ _) = _
  rw [onFrame_of_beaconTaken htaken]
  simp only [beaconTaken, (wellFormed_iff payload).mpr hm, if_true, Fin.ofNat_val_eq_self]
  rw [if_pos (show s.ownRank = (receptionEnds s).ownRank from rfl)]

/-- Settles O23: the filing's own effect stands, since what follows it in the event leaves the table alone. -/
theorem beaconFiled : Obligations.BeaconFiled := by
  intro s r dest payload htaken hm hr h
  refine ⟨_, exec_beacon_of_other htaken hm hr, ?_⟩
  have calm := neighbourBeacon_calm (s := receptionEnds s) r (beaconFields payload).content h
  have table := calm.nt.trans (fileBeacon_nt r (beaconFields payload).content (receptionEnds s))
  refine ⟨by rw [table]; exact List.length_map .., fun i e hi => ?_, fun q => ?_, ?_, fun ho ha hno => ?_⟩
  · have filed : (receptionEnds s).nt.entries[i]? = some e := hi
    rw [table]
    simp only [List.getElem?_map, filed, Option.map_some, fileEntry]
    exact ⟨fun he => by rw [if_pos he], fun he => by rw [if_neg he]⟩
  · rw [table]
    exact (inView_or _ _ _).trans (by rw [inView_single]; rfl)
  · rw [calm.flags _ (by simp)]
    exact fileBeacon_flag r (beaconFields payload).content (receptionEnds s)
  · have quiet : rankConflict (fileBeacon r (beaconFields payload).content (receptionEnds s)) = false := by
      refine Bool.eq_false_iff.mpr (fun hc => ?_)
      obtain ⟨p, hp, hc⟩ := (filing_conflict_iff (s := receptionEnds s) _ _ h).mp hc
      exact hno p hp hc
    have only : neighbourBeacon r (beaconFields payload).content (receptionEnds s)
        = fileBeacon r (beaconFields payload).content (receptionEnds s) := by
      rw [neighbourBeacon_of_other (s := receptionEnds s) ho ha]
      simp [checkRankConflict, quiet]
    rw [only]
    refine ⟨?_, (fileBeacon_flagsKeep r _ (receptionEnds s)).settle, ?_⟩
    · exact (settle_keeps _).via (((withPli_keeps s _).mono (by rfl)).trans (fileBeacon_keeps r _ _)) (by rfl)
    · exact (lineKeeps_fileBeacon r _ (receptionEnds s)).trans (lineKeeps_settle _)

/-! ### A conflict stops the station (R8, R16 to R18) -/

/-- The flag a conflict raises stands after the stop. -/
theorem flag_conflictStop_raise {f : AttentionFlag} {d : Detail} (hf : f ≠ .jointVoided) (h : s.su.lineResetPending = false) :
    (settle (conflictStop d (raise f s))).flag f = true := by
  rw [(conflictStop_calm d ((raise_calm f s).noReset h)).settle.flags f (by simpa using hf), State.flag_raise]
  simp

theorem raise_reports {parts : List Part} {flags : List AttentionFlag} {line : PeerLine} (f : AttentionFlag)
    (k : Keeps (parts ++ [.su, .pli]) s t) (hf : FlagsKeep flags s t) (l : LineKeeps line t.pli) :
    Keeps (parts ++ [.su, .pli]) s (raise f t) ∧ FlagsKeep (flags ++ [f]) s (raise f t) ∧ LineKeeps line (raise f t).pli :=
  ⟨k.trans ((raise_keeps f t).of_subset (by simp)), hf.trans (raise_flagsKeep f t) (by simp) (by simp),
    l.trans (raise_calm f t).line⟩

/-- R16, R17: a conflict that the check finds at an ageing. -/
theorem ageing_stops {p : Nat} (hp : s.tg.p = some p) (h : s.su.lineResetPending = false)
    (hc : Conflict (settle (ageingEvent s)) p) : (settle (ageingEvent s)).flag .rankConflict = true
      ∧ ConflictActs .neighbourOrder [.nt] [.neighbourSilent, .rankConflict] s.pli s (settle (ageingEvent s)) := by
  rw [ageing_conflict ((ageing_conflict_iff h).mpr ⟨p, hp, hc⟩)]
  obtain ⟨k, f, l⟩ := raise_reports (parts := [.nt]) .rankConflict (ageTable_keeps s) (ageTable_flagsKeep s)
    (lineKeeps_ageTable s)
  exact ⟨flag_conflictStop_raise (by simp) ((ageTable_flagsKeep s).lineResetPending.trans h),
    conflictStop_acts k (by simp) f l h⟩

/-- R8: a beacon that bears the own rank. -/
theorem ownRank_stops (h : s.su.lineResetPending = false) :
    (settle (conflictStop .duplicateRank (raise .duplicateRank (receptionEnds s)))).flag .duplicateRank = true
      ∧ ConflictActs .duplicateRank [] [.duplicateRank] { s.pli with reception := .none } s
        (settle (conflictStop .duplicateRank (raise .duplicateRank (receptionEnds s)))) := by
  obtain ⟨k, f, l⟩ := raise_reports (parts := []) (flags := []) .duplicateRank
    ((withPli_keeps s { s.pli with reception := .none }).mono (m := [.su, .pli]) (by rfl)) ⟨fun _ _ => rfl, rfl⟩
    (LineKeeps.refl { s.pli with reception := .none })
  exact ⟨flag_conflictStop_raise (s := receptionEnds s) (by simp) h, conflictStop_acts k (by simp) f l h⟩

/-- R16, R17: a conflict that the check finds at the filing of an adjacent rank's beacon. -/
theorem filing_stops {r : Rank} {c : BeaconContent} {p : Nat} (hp : s.tg.p = some p) (h : s.su.lineResetPending = false)
    (ho : ∀ e ∈ s.ju.openList, e.partner ≠ r) (ha : ∀ a, s.ju.awaited = some a → a.partner ≠ r) :
    let t := settle (neighbourBeacon r c (receptionEnds s))
    Conflict t p → upperNeighbour s.ownRank t.nt.view = some r ∨ lowerNeighbour s.ownRank t.nt.view = some r →
      t.flag .rankConflict = true
        ∧ ConflictActs .neighbourOrder [.nt] [.stranger, .rankConflict] { s.pli with reception := .none } s t := by
  intro t hc hadj
  have calm := neighbourBeacon_calm (s := receptionEnds s) r c h
  have adjacent : isAdjacent (fileBeacon r c (receptionEnds s)) r = true := by
    rw [isAdjacent_iff, ← calm.nt, ← calm.ownRank]
    have own : t.ownRank = s.ownRank := calm.ownRank.trans (fileBeacon_keeps r c (receptionEnds s) .ownRank (by simp))
    rw [← own] at hadj
    exact hadj
  have found : rankConflict (fileBeacon r c (receptionEnds s)) = true :=
    (filing_conflict_iff (s := receptionEnds s) r c h).mpr ⟨p, hp, hc⟩
  have stops : neighbourBeacon r c (receptionEnds s)
      = conflictStop .neighbourOrder (raise .rankConflict (fileBeacon r c (receptionEnds s))) := by
    rw [neighbourBeacon_of_other (s := receptionEnds s) ho ha, if_pos adjacent, checkRankConflict, if_pos found]
  obtain ⟨k, f, l⟩ := raise_reports (parts := [.nt]) (line := { s.pli with reception := .none }) .rankConflict
    (((withPli_keeps s { s.pli with reception := .none }).mono (by rfl)).trans (fileBeacon_keeps r c (receptionEnds s)))
    (fileBeacon_flagsKeep r c (receptionEnds s)) (lineKeeps_fileBeacon r c (receptionEnds s))
  show (settle (neighbourBeacon r c (receptionEnds s))).flag .rankConflict = true ∧ ConflictActs _ _ _ _ s
    (settle (neighbourBeacon r c (receptionEnds s)))
  rw [stops]
  exact ⟨flag_conflictStop_raise (by simp) ((fileBeacon_flagsKeep r c (receptionEnds s)).lineResetPending.trans h),
    conflictStop_acts k (by simp) f l h⟩

/-- Settles O26: the three events that find a conflict, or a duplicate rank, go through the same stop. -/
theorem rankConflictStops : Obligations.RankConflictStops := by
  refine ⟨fun s p hp h => ⟨_, exec_ageing s, ageing_stops hp h⟩, fun s dest payload htaken hm h => ⟨?_, ?_⟩⟩
  · exact ⟨_, exec_beacon_of_own htaken hm, ownRank_stops h⟩
  · intro r p hr hp ho ha
    exact ⟨_, exec_beacon_of_other htaken hm hr, filing_stops hp h ho ha⟩

end Sys2Proof.Machine

namespace Sys2Proof.Machine

variable {s t u : State}

/-! ### The reset cause of an operation of the chain (R170)

Only a LINE RESET that takes effect changes it, and an operation of the chain has that as its last act (R95, R169). -/

/-- The station as a LINE RESET leaves it: UNCONFIGURED, with no chain. -/
def Dormant (s : State) : Prop :=
  s.su.station = .unconfigured ∧ s.px.state = .idle

/-- The reset cause is as it was, or a LINE RESET has taken effect last. -/
def CauseOrReset (s t : State) : Prop :=
  t.su.resetCause = s.su.resetCause ∨ (t.su.resetCause = .lineReset ∧ Dormant t)

theorem CauseOrReset.refl (s : State) : CauseOrReset s s := .inl rfl

theorem CauseOrReset.after (h : CauseOrReset t u) (k : t.su.resetCause = s.su.resetCause) : CauseOrReset s u :=
  h.imp (fun h => h.trans k) id

theorem CauseOrReset.ite {p : Prop} [Decidable p] (h : CauseOrReset s t) (k : CauseOrReset s u) :
    CauseOrReset s (if p then t else u) := by
  split
  · exact h
  · exact k

theorem cause_of_keeps {l : List Part} (h : Keeps l s t) (hl : .su ∉ l) : t.su.resetCause = s.su.resetCause :=
  congrArg (fun x => x.resetCause) (h .su hl)

@[simp] theorem raise_cause (f : AttentionFlag) (s : State) : (raise f s).su.resetCause = s.su.resetCause :=
  congrArg (fun x => x.resetCause) (raise_flagsKeep f s).2

@[simp] theorem raiseIf_cause (b : Bool) (f : AttentionFlag) (s : State) :
    (raiseIf b f s).su.resetCause = s.su.resetCause :=
  congrArg (fun x => x.resetCause) (raiseIf_flagsKeep b f s).2

@[simp] theorem setStation_cause (x : StationState) (s : State) : (setStation x s).su.resetCause = s.su.resetCause := by
  rw [setStation_su]

@[simp] theorem setExecutor_cause (x : ExecutorState) (s : State) : (setExecutor x s).su.resetCause = s.su.resetCause :=
  cause_of_keeps (setExecutor_keeps x s) (by simp)

@[simp] theorem setIndex_cause (i : Nat) (s : State) : (setIndex i s).su.resetCause = s.su.resetCause :=
  cause_of_keeps (setIndex_keeps i s) (by simp)

@[simp] theorem setJoints_cause (j : JointUnit) (s : State) : (setJoints j s).su.resetCause = s.su.resetCause :=
  cause_of_keeps (setJoints_keeps j s) (by simp)

@[simp] theorem faultRetract_cause (s : State) : (faultRetract s).su.resetCause = s.su.resetCause :=
  cause_of_keeps (faultRetract_keeps s) (by simp)

@[simp] theorem normalRetract_cause (s : State) : (normalRetract s).su.resetCause = s.su.resetCause :=
  cause_of_keeps (normalRetract_keeps s) (by simp)

@[simp] theorem spinUp_cause (w : WeldParams) (s : State) : (spinUp w s).su.resetCause = s.su.resetCause :=
  cause_of_keeps (spinUp_keeps w s) (by simp)

@[simp] theorem continueWeld_cause (a b : Nat) (c : Bool) (s : State) :
    (continueWeld a b c s).su.resetCause = s.su.resetCause :=
  cause_of_keeps (continueWeld_keeps a b c s) (by simp)

@[simp] theorem fileSecondary_cause (d : Detail) (s : State) : (fileSecondary d s).su.resetCause = s.su.resetCause :=
  cause_of_keeps (fileSecondary_keeps d s) (by simp)

@[simp] theorem decideEnd_cause (e : Decision) (s : State) : (decideEnd e s).su.resetCause = s.su.resetCause := rfl

@[simp] theorem withdrawTarget_cause (s : State) : (withdrawTarget s).su.resetCause = s.su.resetCause := rfl

@[simp] theorem giveTarget_cause (m : MotionTarget) (d : Direction) (b : Bool) (s : State) :
    (giveTarget m d b s).su.resetCause = s.su.resetCause := rfl

@[simp] theorem closeJoints_cause (k : EndKind) (s : State) : (closeJoints k s).su.resetCause = s.su.resetCause := by
  simp [closeJoints]

@[simp] theorem notifyFetch_cause (r : PassRecord) (s : State) : (notifyFetch r s).su.resetCause = s.su.resetCause := by
  unfold notifyFetch
  split
  · exact raise_cause .notify s
  · rfl

@[simp] theorem takeIndex_cause (i : Nat) (s : State) : (takeIndex i s).su.resetCause = s.su.resetCause := by
  simp [takeIndex]

@[simp] theorem startJoints_cause (r : PassRecord) (d : Direction) (s : State) :
    (startJoints r d s).su.resetCause = s.su.resetCause :=
  setJoints_cause _ s

/-! ### Ends -/

theorem lineResetEffect_cause (s : State) : CauseOrReset s (lineResetEffect s) := .inr ⟨rfl, rfl, rfl⟩

theorem endChain_cause (e : Decision) (s : State) : CauseOrReset s (endChain e s) := by
  simp only [endChain]
  split
  · exact (lineResetEffect_cause _).after (by simp [setCompletionPending_su])
  · split <;> exact .inl (by simp [setCompletionPending_su])

theorem closeStopping_cause (e : Decision) (s : State) : CauseOrReset s (closeStopping e s) :=
  (endChain_cause e _).after (by simp)

theorem closeRest_cause (e : Decision) (s : State) : CauseOrReset s (if atRest s then closeStopping e s else s) :=
  (closeStopping_cause e s).ite (.refl s)

/-! ### Fetch and start -/

theorem programCheck_cause (d : Detail) (s : State) : CauseOrReset s (programCheck d s) := by
  simp only [programCheck]
  split
  · exact (closeStopping_cause _ _).after (by simp)
  · exact (closeRest_cause _ _).after (by simp)

theorem startFreshWeld_cause (r : PassRecord) (s : State) : CauseOrReset s (startFreshWeld r s) := by
  simp only [startFreshWeld]
  split
  · exact .inl (by simp)
  · split
    · exact (closeStopping_cause _ _).after (by simp)
    · exact .inl (by simp)

theorem handRecordOn_cause (r : PassRecord) (s : State) : CauseOrReset s (handRecordOn r s) := by
  simp only [handRecordOn]
  split
  · exact closeStopping_cause _ s
  · split
    · exact .inl (by simp [startTravel])
    · exact .inl (by simp [startTravel])
    · exact .inl (by simp [startPause])
    · split
      · exact (startFreshWeld_cause r _).after (by simp)
      · exact .inl (by simp [startContinuation])
    · exact .inl (by simp)

theorem startRecord_cause (r : PassRecord) (s : State) : CauseOrReset s (startRecord r s) :=
  CauseOrReset.ite (.inl (by simp)) (handRecordOn_cause r s)

theorem judgeAndStart_cause (k : RecordKind) (r : PassRecord) (s : State) : CauseOrReset s (judgeAndStart k r s) := by
  unfold judgeAndStart
  split
  · exact programCheck_cause _ s
  · exact (startRecord_cause r _).after rfl

theorem followBranch_cause (r : PassRecord) (s : State) : CauseOrReset s (followBranch r s) := by
  simp only [followBranch]
  split
  · exact programCheck_cause _ s
  · split
    · exact (programCheck_cause _ _).after (by simp)
    · exact (programCheck_cause _ _).after (by simp)
    · exact (judgeAndStart_cause _ _ _).after (by simp)

theorem completeFetch_cause (s : State) : CauseOrReset s (completeFetch s) := by
  simp only [completeFetch]
  split
  · exact (programCheck_cause _ _).after rfl
  · split
    · exact (programCheck_cause _ _).after rfl
    · exact CauseOrReset.ite ((programCheck_cause _ _).after rfl) ((followBranch_cause _ _).after rfl)
    · exact (judgeAndStart_cause _ _ _).after rfl

theorem beginFetch_cause (role : Role) (i : Nat) (s : State) : CauseOrReset s (beginFetch role i s) := by
  simp only [beginFetch]
  split
  · exact (programCheck_cause _ _).after (by simp)
  · exact .inl (by simp)

/-! ### Closes and causes -/

theorem closeRecord_cause (s : State) : CauseOrReset s (closeRecord s) := by
  unfold closeRecord
  split
  · exact .refl s
  · split
    · exact closeStopping_cause _ s
    · exact (beginFetch_cause _ _ _).after (by simp)

theorem closeIfRest_cause (s : State) : CauseOrReset s (closeIfRest s) := (closeRecord_cause s).ite (.refl s)

theorem awaitEnd_cause (e : Decision) (s : State) : CauseOrReset s (awaitEnd e s) := (closeIfRest_cause _).after (by simp)

theorem executorPathEnd_cause (s : State) : CauseOrReset s (executorPathEnd s) := by
  simp only [executorPathEnd]
  split
  · exact CauseOrReset.ite ((closeRecord_cause _).after rfl) ((closeIfRest_cause _).after (by simp))
  · exact .refl s

theorem executorShortEnd_cause (e : Decision) (s : State) : CauseOrReset s (executorShortEnd e s) :=
  (awaitEnd_cause e s).ite (.refl s)

theorem stoppingCause_cause (e : Decision) (d : Detail) (s : State) : CauseOrReset s (stoppingCause e d s) := by
  have waits : CauseOrReset s (awaitEnd e (faultRetract (withdrawTarget s))) := (awaitEnd_cause e _).after (by simp)
  simp only [stoppingCause]
  split
  · exact .refl s
  · exact .refl s
  · exact closeStopping_cause e s
  · split
    · exact closeStopping_cause e s
    · exact waits
  · exact waits
  · exact CauseOrReset.ite (.inl (by simp)) (.inl (by simp))
  · exact .inl (by simp)

theorem faultCause_cause (d : Detail) (s : State) : CauseOrReset s (faultCause d s) :=
  (stoppingCause_cause _ d _).after (by simp)

theorem headFault_cause (d : Detail) (s : State) : CauseOrReset s (headFault d s) := (faultCause_cause d _).after (by simp)

theorem conflictStop_cause (d : Detail) (s : State) : CauseOrReset s (conflictStop d s) := by
  simp only [conflictStop]
  exact CauseOrReset.ite (CauseOrReset.ite (.inl rfl) ((stoppingCause_cause _ d _).after rfl)) (.refl s)

theorem checkRankConflict_cause (s : State) : CauseOrReset s (checkRankConflict s) :=
  CauseOrReset.ite ((conflictStop_cause _ _).after (by simp)) (.refl s)

theorem estopCause_cause (s : State) : CauseOrReset s (estopCause s) := by
  unfold estopCause
  split
  · exact .refl s
  · exact .refl s
  · split
    · exact CauseOrReset.ite (closeStopping_cause _ s) ((closeStopping_cause _ _).after (by simp))
    · exact closeStopping_cause _ s
  · exact closeStopping_cause _ s

theorem retractTimeoutCause_cause (s : State) : CauseOrReset s (retractTimeoutCause s) := by
  simp only [retractTimeoutCause]
  split
  · exact .inl (by simp)
  · exact .inl (by simp)
  · split
    · exact CauseOrReset.ite ((closeStopping_cause _ _).after (by simp)) ((closeStopping_cause _ _).after (by simp))
    · exact (closeStopping_cause _ _).after (by simp)

theorem headEnd_cause (s : State) : CauseOrReset s (headEnd s) :=
  (closeIfRest_cause s).ite ((lineResetEffect_cause s).ite (CauseOrReset.ite (.inl (by simp)) (.refl s)))

theorem haltTaken_cause (s : State) : CauseOrReset s (haltTaken s) := by
  have waits (e : Decision) :
      CauseOrReset s (closeIfRest (setExecutor .halting (decideEnd e (normalRetract (withdrawTarget s))))) :=
    (closeIfRest_cause _).after (by simp)
  simp only [haltTaken]
  split
  · exact .refl s
  · exact .refl s
  · exact .refl s
  · exact closeStopping_cause _ s
  · split
    · exact closeStopping_cause _ s
    · exact waits _
  · exact waits _
  · exact CauseOrReset.ite (.refl s) (.inl (by simp))

theorem pauseCounts_cause (s : State) : CauseOrReset s (pauseCounts s) :=
  CauseOrReset.ite ((closeRecord_cause _).after rfl) (.inl rfl)

theorem executorCloses_cause (s : State) : CauseOrReset s (executorCloses s) :=
  (closeIfRest_cause s).ite ((completeFetch_cause s).ite (.refl s))

theorem startHeld_cause (s : State) : CauseOrReset s (startHeld s) := by
  unfold startHeld
  split
  · exact startRecord_cause _ s
  · exact .refl s

end Sys2Proof.Machine

namespace Sys2Proof.Machine

variable {s t u : State}

/-! ### Commands of several operations

A LINE RESET leaves the station with no chain, and every operation that a command may add after it finds nothing to end:
the cause it left stands (R89, R95, R169). -/

/-- An operation of a command that may do several: the windows, Pass Memory, own rank and interval count stay, and so does
the station that a LINE RESET has left. -/
structure Turn (s t : State) : Prop where
  kept : Keeps chainParts s t
  cause : CauseOrReset s t
  dormant : Dormant s → Dormant t

/-- The parts an operation may change without touching the station, the executor or the reset cause. -/
def besideChain : List Part := [.constants, .nt, .tg, .hs, .ju, .dp, .pli, .freeCount]

namespace Turn

theorem refl (s : State) : Turn s s := ⟨Keeps.refl _ s, .refl s, id⟩

theorem trans (h : Turn s t) (k : Turn t u) : Turn s u := by
  refine ⟨h.kept.trans k.kept, ?_, k.dormant ∘ h.dormant⟩
  rcases k.cause with same | reset
  · exact h.cause.imp (fun c => same.trans c) (fun ⟨c, d⟩ => ⟨same.trans c, k.dormant d⟩)
  · exact .inr reset

theorem of_keeps {l : List Part} (h : Keeps l s t) (hl : partsWithin l besideChain = true) : Turn s t := by
  have kept := h.mono hl
  have su : t.su = s.su := kept .su (by simp [besideChain])
  have px : t.px = s.px := kept .px (by simp [besideChain])
  exact ⟨kept.mono (by rfl), .inl (by rw [su]), fun d => by rw [Dormant, su, px]; exact d⟩

theorem ite {p : Prop} [Decidable p] (h : Turn s t) (k : Turn s u) : Turn s (if p then t else u) := by
  split
  · exact h
  · exact k

/-- An operation of the executor that does nothing while no chain runs. -/
theorem of_idle (h : Keeps chainParts s t) (c : CauseOrReset s t) (same : s.px.state = .idle → t = s) : Turn s t :=
  ⟨h, c, fun d => by rw [same d.2]; exact d⟩

theorem settle (h : Turn s t) : Turn s (settle t) := h.trans (of_keeps (settle_keeps t) (by rfl))

end Turn

theorem raise_turn (f : AttentionFlag) (s : State) : Turn s (raise f s) := by
  refine ⟨(raise_keeps f s).mono (by rfl), .inl (by simp), fun d => ⟨?_, ?_⟩⟩
  · exact (congrArg (fun x => x.station) (raise_flagsKeep f s).2).trans d.1
  · rw [show (raise f s).px = s.px from raise_keeps f s .px (by simp)]
    exact d.2

theorem raiseIf_turn (b : Bool) (f : AttentionFlag) (s : State) : Turn s (raiseIf b f s) :=
  (raise_turn f s).ite (.refl s)

theorem stoppingCause_turn (e : Decision) (d : Detail) (s : State) : Turn s (stoppingCause e d s) :=
  .of_idle (stoppingCause_keeps e d s) (stoppingCause_cause e d s) (fun h => by simp only [stoppingCause, h])

theorem faultCause_turn (d : Detail) (s : State) : Turn s (faultCause d s) :=
  (raise_turn .fault s).trans (stoppingCause_turn _ d _)

theorem headFault_turn (d : Detail) (s : State) : Turn s (headFault d s) :=
  (Turn.of_keeps (faultRetract_keeps s) (by rfl)).trans (faultCause_turn d _)

theorem conflictStop_turn (d : Detail) (s : State) : Turn s (conflictStop d s) :=
  have stopped : Turn s (immediateStop s) := .of_keeps (immediateStop_keeps s) (by rfl)
  Turn.ite (Turn.ite stopped (stopped.trans (stoppingCause_turn _ d _))) (.refl s)

theorem checkRankConflict_turn (s : State) : Turn s (checkRankConflict s) :=
  ((raise_turn _ s).trans (conflictStop_turn _ _)).ite (.refl s)

theorem estopCause_turn (s : State) : Turn s (estopCause s) :=
  .of_idle (estopCause_keeps s) (estopCause_cause s) (fun h => by simp only [estopCause, h])

theorem retractTimeoutCause_turn (s : State) : Turn s (retractTimeoutCause s) := by
  refine ⟨retractTimeoutCause_keeps s, retractTimeoutCause_cause s, fun d => ?_⟩
  have raised := (raise_turn .fault s).dormant d
  have only : retractTimeoutCause s = raise .fault s := by simp only [retractTimeoutCause, raised.2]
  rw [only]
  exact raised

theorem lineResetEffect_turn (s : State) : Turn s (lineResetEffect s) :=
  ⟨lineResetEffect_keeps s, lineResetEffect_cause s, fun _ => ⟨rfl, rfl⟩⟩

theorem heldResetEffect_turn (s : State) : Turn s (heldResetEffect s) := (lineResetEffect_turn s).ite (.refl s)

theorem retractTimesOut_turn (s : State) : Turn s (retractTimesOut s) :=
  (((Turn.of_keeps (enterHalted_keeps s) (by rfl)).trans (.of_keeps (immediateStop_keeps _) (by rfl))).trans
    (retractTimeoutCause_turn _)).trans (heldResetEffect_turn _)

theorem waitingForRest_of_idle (h : s.px.state = .idle) : waitingForRest s = false := by simp [waitingForRest, h]

theorem headEnd_turn (s : State) : Turn s (headEnd s) := by
  refine ⟨headEnd_keeps s, headEnd_cause s, fun d => ?_⟩
  simp only [headEnd, waitingForRest_of_idle d.2, d.2, reduceCtorEq, Bool.false_eq_true, if_false]
  split
  · exact ⟨rfl, rfl⟩
  · exact d

theorem executorPathEnd_turn (s : State) : Turn s (executorPathEnd s) :=
  .of_idle (executorPathEnd_keeps s) (executorPathEnd_cause s) (fun h => by simp [executorPathEnd, h])

theorem executorShortEnd_turn (e : Decision) (s : State) : Turn s (executorShortEnd e s) :=
  .of_idle (executorShortEnd_keeps e s) (executorShortEnd_cause e s) (fun h => by simp [executorShortEnd, h])

theorem haltTaken_turn (s : State) : Turn s (haltTaken s) :=
  .of_idle (haltTaken_keeps s) (haltTaken_cause s) (fun h => by simp only [haltTaken, h])

theorem executorCloses_turn (s : State) : Turn s (executorCloses s) :=
  .of_idle (executorCloses_keeps s) (executorCloses_cause s)
    (fun h => by simp [executorCloses, waitingForRest_of_idle h, h])

theorem executorTurn_turn (s : State) : Turn s (executorTurn s) :=
  .of_idle (executorTurn_keeps s) ((pauseCounts_cause s).ite (executorCloses_cause s))
    (fun h => by simp [executorTurn, pausing, executorCloses, waitingForRest_of_idle h, h])

theorem startHeld_turn (s : State) : Turn s (startHeld s) := by
  refine .of_idle ?_ (startHeld_cause s) (fun h => by simp only [startHeld, h])
  unfold startHeld
  split
  · exact startRecord_keeps _ s
  · exact Keeps.refl _ s

/-! ### The blocks' work at an expiry -/

theorem portWork_turn (s : State) : Turn s (portWork s) :=
  ((Turn.of_keeps (withDp_keeps s _) (by rfl)).trans (faultCause_turn _ _)).ite (.of_keeps (withDp_keeps s _) (by rfl))

theorem periodWork_turn (s : State) : Turn s (periodWork s) :=
  ((Turn.of_keeps (withPli_keeps s _) (by rfl)).trans (.of_keeps (beaconDue_keeps _) (by rfl))).ite
    ((Turn.of_keeps (withPli_keeps s _) (by rfl)).ite (.refl s))

theorem holdOffWork_turn (s : State) : Turn s (holdOffWork s) := by
  have ended (x : PeerLine) : Turn s (s.withPli x) := .of_keeps (withPli_keeps s x) (by rfl)
  simp only [holdOffWork]
  split
  · split
    · exact ((ended _).trans (.of_keeps (withPli_keeps _ _) (by rfl))).trans (.of_keeps (beaconDue_keeps _) (by rfl))
    · exact ended _
  · exact .refl s

theorem lineWork_turn (s : State) : Turn s (lineWork s) := (periodWork_turn s).trans (holdOffWork_turn _)

theorem orderedWork_turn (o : ExpiryOrder) (s : State) : Turn s (orderedWork o s) := by
  have port := portWork_turn
  have executor := executorTurn_turn
  have line := lineWork_turn
  cases o with
  | portExecutorLine => exact ((port _).trans (executor _)).trans (line _)
  | portLineExecutor => exact ((port _).trans (line _)).trans (executor _)
  | executorPortLine => exact ((executor _).trans (port _)).trans (line _)
  | executorLinePort => exact ((executor _).trans (line _)).trans (port _)
  | linePortExecutor => exact ((line _).trans (port _)).trans (executor _)
  | lineExecutorPort => exact ((line _).trans (executor _)).trans (port _)

theorem ageingEvent_turn (s : State) : Turn s (ageingEvent s) :=
  ((Turn.of_keeps (withNt_keeps s _) (by rfl)).trans (raiseIf_turn _ _ _)).trans (checkRankConflict_turn _)

theorem headRamps_turn (s : State) : Turn s (headRamps s) := by
  have force (w : WeldParams) : Turn s (forceStep w s) :=
    (Turn.of_keeps (withHs_keeps s _) (by rfl)).trans (raiseIf_turn _ _ _)
  unfold headRamps
  split
  · exact .of_keeps (withHs_keeps s _) (by rfl)
  · exact (force _).ite (.refl s)
  · exact .of_keeps (withHs_keeps s _) (by rfl)
  · exact .refl s

theorem phaseCheck_turn (s : State) : Turn s (phaseCheck s) := by
  unfold phaseCheck
  split
  · exact headFault_turn _ s
  · exact (retractTimesOut_turn s).ite (.of_keeps (endDwell_keeps s) (by rfl))

theorem forceCheck_turn (s : State) : Turn s (forceCheck s) := (headFault_turn _ s).ite (.refl s)

theorem headExpiry_turn (b : Bool) (s : State) : Turn s (headExpiry b s) := by
  have ramped : Turn s (headRamps (headCounts s)) :=
    (Turn.of_keeps (headCounts_keeps s) (by rfl)).trans (headRamps_turn _)
  have checked := Turn.ite (p := b = true) ((phaseCheck_turn (headRamps (headCounts s))).trans (forceCheck_turn _))
    ((forceCheck_turn (headRamps (headCounts s))).trans (phaseCheck_turn _))
  exact (ramped.trans checked).trans (.of_keeps (startPendingRetract_keeps _) (by rfl))

theorem applyTravel_turn (r : TravelResult) (s : State) : Turn s (applyTravel r s) :=
  (Turn.of_keeps (withTg_keeps s _) (by rfl)).trans (raiseIf_turn _ _ _)

theorem travelReported_turn (r : TravelReport) (s : State) : Turn s (travelReported r s) := by
  cases r with
  | none => exact .refl s
  | pathEnd => exact (Turn.ite (.of_keeps (headPathEnd_keeps s) (by rfl)) (.refl s)).trans (executorPathEnd_turn _)
  | stall => exact executorShortEnd_turn _ s
  | holdExpired => exact (Turn.of_keeps (retractOnReport_keeps s) (by rfl)).trans (executorShortEnd_turn _ _)
  | holdStop => exact (Turn.of_keeps (retractOnReport_keeps s) (by rfl)).trans (executorShortEnd_turn _ _)

theorem travelEvent_turn (s : State) : Turn s (travelEvent s) := by
  unfold travelEvent
  split
  · exact .refl s
  · exact (applyTravel_turn _ s).trans (travelReported_turn _ _)

/-! ### The drive's messages and the lines -/

theorem handOn_turn (m : Feedback) (s : State) : Turn s (handOn m s) := by
  have held : Turn s (holdFeedback m s) := .of_keeps (withDp_keeps s _) (by rfl)
  have position (x : State) : Turn x (followPosition m x) := Turn.ite (.of_keeps (withTg_keeps x _) (by rfl)) (.refl x)
  have zCommand (x : State) : Turn x (followZ m x) := Turn.ite (.refl x) (.of_keeps (withHs_keeps x _) (by rfl))
  have force (x : State) : Turn x (takeForce m x) := Turn.ite (.of_keeps (withHs_keeps x _) (by rfl)) (.refl x)
  exact ((held.trans (position _)).trans (zCommand _)).trans (force _)

theorem driveFault_turn (found s : State) : Turn s (driveFault found s) :=
  ((Turn.of_keeps (withDp_keeps s _) (by rfl)).trans (faultCause_turn _ _)).ite (.refl s)

theorem feedbackFaults_turn (m : Feedback) (found s : State) : Turn s (feedbackFaults m found s) := by
  have position : Turn s (positionFault m found s) :=
    (driveFault_turn found s).ite (((Turn.of_keeps (withTg_keeps s _) (by rfl)).trans (faultCause_turn _ _)).ite (.refl s))
  have overload (x : State) : Turn x (overloadFault m found x) := (headFault_turn _ x).ite (.refl x)
  have code (x : State) : Turn x (codeFault m found x) := Turn.ite (.refl x) (driveFault_turn found x)
  exact (position.trans (overload _)).trans (code _)

theorem feedbackCompletes_turn (m : Feedback) (found s : State) : Turn s (feedbackCompletes m found s) := by
  unfold feedbackCompletes
  refine Turn.ite (.refl s) (Turn.ite (.of_keeps (enterHead_keeps _ s) (by rfl)) (Turn.ite ?_ ?_))
  · exact (Turn.of_keeps (enterParked_keeps s) (by rfl)).trans (headEnd_turn _)
  · split
    · exact Turn.ite (.of_keeps (plungeDone_keeps _ s) (by rfl)) (.refl s)
    · exact .refl s

theorem takeFeedback_turn (b : Bool) (s : State) : Turn s (takeFeedback b s) := by
  unfold takeFeedback
  split
  · exact .refl s
  · exact Turn.ite (((handOn_turn _ s).trans (feedbackCompletes_turn _ _ _)).trans (feedbackFaults_turn _ _ _))
      (((handOn_turn _ s).trans (feedbackFaults_turn _ _ _)).trans (feedbackCompletes_turn _ _ _))

theorem estopAsserted_turn (s : State) : Turn s (estopAsserted s) := by
  have off : Turn s (immediateStop (s.withDp { s.dp with estop := true, enable := false })) :=
    (Turn.of_keeps (withDp_keeps s _) (by rfl)).trans (.of_keeps (immediateStop_keeps _) (by rfl))
  have parked (x : State) : Turn x (if x.hs.state = .parked ∨ x.hs.state = .halted then x else enterHalted x) :=
    Turn.ite (.refl x) (.of_keeps (enterHalted_keeps x) (by rfl))
  exact ((off.trans (parked _)).trans (estopCause_turn _)).trans (heldResetEffect_turn _)

theorem clampOpens_turn (s : State) : Turn s (clampOpens s) := by
  have opened : Turn s (s.withDp { s.dp with clamp := false }) := .of_keeps (withDp_keeps s _) (by rfl)
  exact Turn.ite (opened.trans (headFault_turn _ _)) opened

/-! ### The beacon -/

theorem jointsFiled_turn (r : Rank) (c : BeaconContent) (s : State) : Turn s (jointsFiled r c s) :=
  have set : Turn s (setJoints (filingEvaluates r c.openList (removeJoints r c.closedList s.ju)) s) :=
    .of_keeps (setJoints_keeps _ s) (by rfl)
  Turn.ite (set.trans (startHeld_turn _)) set

theorem beaconTaken_turn (f : ReceivedFrame) (s : State) : Turn s (beaconTaken f s) := by
  have filed (r : Rank) (c : BeaconContent) : Turn s (jointsFiled r c (fileBeacon r c s)) :=
    ((Turn.of_keeps (withNt_keeps s _) (by rfl)).trans (raiseIf_turn _ _ _)).trans (jointsFiled_turn r c _)
  have neighbour (r : Rank) (c : BeaconContent) : Turn s (neighbourBeacon r c s) :=
    Turn.ite ((filed r c).trans (checkRankConflict_turn _)) (filed r c)
  exact Turn.ite (Turn.ite ((raise_turn _ s).trans (conflictStop_turn _ _)) (neighbour _ _)) (.refl s)

end Sys2Proof.Machine

namespace Sys2Proof.Machine

variable {s t u : State}

/-! ### What the commands leave alone (R53, R67, R170) -/

/-- The windows, Pass Memory, own rank and interval count stay, and the reset cause changes by a LINE RESET alone. -/
structure Change (s t : State) : Prop where
  kept : Keeps chainParts s t
  cause : CauseOrReset s t

theorem Turn.change (h : Turn s t) : Change s t := ⟨h.kept, h.cause⟩

namespace Change

theorem refl (s : State) : Change s s := (Turn.refl s).change

theorem ite {p : Prop} [Decidable p] (h : Change s t) (k : Change s u) : Change s (if p then t else u) := by
  split
  · exact h
  · exact k

/-- An operation that leaves the reset cause alone. -/
theorem of_keeps {l : List Part} (h : Keeps l s t) (hl : partsWithin l chainParts = true)
    (c : t.su.resetCause = s.su.resetCause) : Change s t := ⟨h.mono hl, .inl c⟩

/-- An operation after another that leaves the reset cause alone. -/
theorem after {l : List Part} (k : Change t u) (h : Keeps l s t) (hl : partsWithin l chainParts = true)
    (c : t.su.resetCause = s.su.resetCause) : Change s u :=
  ⟨(h.mono hl).trans k.kept, k.cause.after c⟩

theorem settle (h : Change s t) : Change s (settle t) := by
  refine ⟨h.kept.trans ((settle_keeps t).mono (by rfl)), ?_⟩
  obtain ⟨l, he, _⟩ := settle_eq t
  rw [he]
  exact h.cause

/-- A row that names one outcome of an event, or acts only in some states. -/
theorem gated {p : Prop} [Decidable p] (h : Change s t) (k : Change s u) :
    Change s (if p then Sys2Proof.Machine.settle t else u) := h.settle.ite k

end Change

theorem receptionEnds_change (s : State) : Change s (receptionEnds s) := .of_keeps (withPli_keeps s _) (by rfl) rfl

theorem onFrame_change (k : FrameKind) (bs : List Byte) {act : ReceivedFrame → State → State}
    (ha : ∀ f x, Change x (act f x)) (s : State) : Change s (onFrame k bs act s) := by
  unfold onFrame
  split
  · exact receptionEnds_change s
  · exact ((ha _ (receptionEnds s)).after (receptionEnds_change s).kept (by rfl) rfl).settle

/-! ### The frames' owners -/

theorem raise_change (f : AttentionFlag) (s : State) : Change s (raise f s) := (raise_turn f s).change

theorem setStation_change (x : StationState) (s : State) : Change s (setStation x s) :=
  .of_keeps (setStation_keeps x s) (by rfl) (by simp)

theorem overrideTaken_change (f : ReceivedFrame) (s : State) : Change s (overrideTaken f s) :=
  (raiseIf_turn _ _ _).change.after (withPx_keeps s _) (by rfl) rfl

theorem installSetup_change (mask : BitVec 8) (c : Constants) (s : State) : Change s (installSetup mask c s) :=
  (((setStation_change .idle _).after (withPli_keeps _ _) (by rfl) rfl).after (withNt_keeps _ _) (by rfl) rfl).after
    (withConstants_keeps s c) (by rfl) rfl

theorem setupTaken_change (f : ReceivedFrame) (s : State) : Change s (setupTaken f s) :=
  (raise_change _ s).ite ((raise_change _ s).ite
    ((installSetup_change _ _ _).after (raiseIf_keeps _ _ s) (by rfl) (by simp)))

theorem startEnable_keeps (s : State) : Keeps [.hs, .dp] s (startEnable s) := by
  unfold startEnable
  exact (Keeps.refl _ s).ite ((withDp_keeps s _).then (withHs_keeps _ _) (by rfl) (by rfl))

theorem startChain_change (s : State) : Change s (startChain s) := by
  have enable (x : State) : Change x (startEnable x) :=
    .of_keeps (startEnable_keeps x) (by rfl) (cause_of_keeps (startEnable_keeps x) (by simp))
  exact ((((enable _).after (withDp_keeps _ _) (by rfl) rfl).after (withTg_keeps _ _) (by rfl) rfl).after (withPx_keeps _ _)
    (by rfl) rfl).after (setStation_keeps .running s) (by rfl) (by simp)

theorem startChain_cause (s : State) : (startChain s).su.resetCause = s.su.resetCause := by
  have enable (x : State) : (startEnable x).su = x.su := startEnable_keeps x .su (by simp)
  simp only [startChain, enable]
  exact setStation_cause .running s

theorem jobStartTaken_change (f : ReceivedFrame) (s : State) : Change s (jobStartTaken f s) := by
  unfold jobStartTaken
  split
  · exact .refl s
  · refine (raise_change _ s).ite (Change.after ⟨beginFetch_keeps _ _ _, beginFetch_cause _ _ _⟩ (startChain_change s).kept
      (by rfl) (startChain_cause s))

theorem jobClearTaken_change (s : State) : Change s (jobClearTaken s) := by
  have cleared : (jobCleared s).su.resetCause = s.su.resetCause := cause_of_keeps (jobCleared_keeps s) (by simp)
  have acts (x : State) : Change x (if x.su.station = .unconfigured then x
      else if x.hs.state = .halted then beginRetractFromHalted x
      else if x.su.station = .stopped ∧ x.hs.state = .parked then setStation .idle (setExecutor .idle x) else x) := by
    refine Change.ite (.refl x) (Change.ite ?_ (Change.ite ?_ (.refl x)))
    · exact .of_keeps (beginRetractFromHalted_keeps x) (by rfl) (cause_of_keeps (beginRetractFromHalted_keeps x) (by simp))
    · exact (setStation_change .idle _).after (setExecutor_keeps .idle x) (by rfl) (by simp)
  exact (raise_change _ s).ite ((acts _).after (jobCleared_keeps s) (by rfl) cleared)

theorem lineResetTaken_change (s : State) : Change s (lineResetTaken s) := by
  have pending (x : StatusUnit) (h : x.resetCause = s.su.resetCause) : Change s (s.withSu x) :=
    .of_keeps (withSu_keeps s x) (by rfl) h
  refine Change.ite (Change.ite (.refl s) ?_) (Change.ite (pending _ rfl) (lineResetEffect_turn s).change)
  exact (haltTaken_turn _).change.after (withSu_keeps s _) (by rfl) rfl

theorem queueReply_change (r : Reply) (s : State) : Change s (queueReply r s) := .of_keeps (withPli_keeps s _) (by rfl) rfl

theorem stationRequest_change (f : ReceivedFrame) (s : State) : Change s (stationRequest f s) :=
  Change.ite ((Change.of_keeps (withFree_keeps _ _) (by rfl) rfl).after (withPli_keeps s _) (by rfl) rfl) (.refl s)

theorem completionRequest_change (f : ReceivedFrame) (s : State) : Change s (completionRequest f s) := by
  refine Change.ite ?_ (.refl s)
  split
  · exact (queueReply_change _ _).after (setCompletionPending_keeps false s) (by rfl) (by rw [setCompletionPending_su])
  · exact queueReply_change _ s

theorem clearFlags_cause (s : State) : (clearFlags s).su.resetCause = s.su.resetCause := by
  obtain ⟨l, he, _⟩ := clearFlags_eq s
  rw [he]

theorem attentionRequest_change (f : ReceivedFrame) (s : State) : Change s (attentionRequest f s) := by
  refine Change.ite ?_ (.refl s)
  split
  · exact (queueReply_change _ _).after (clearFlags_keeps s) (by rfl) (clearFlags_cause s)
  · exact queueReply_change _ s

theorem lineStarts_change (rivals : List Byte) (s : State) : Change s (lineStarts rivals s) := by
  have line (x : PeerLine) : Change s (s.withPli x) := .of_keeps (withPli_keeps s x) (by rfl) rfl
  unfold lineStarts
  split
  · exact .refl s
  · split
    · exact line _
    · refine Change.ite ?_ (line _)
      unfold beginTransmission
      split <;> exact line _

theorem lineLeft_change (s : State) : Change s (lineLeft s) := by
  unfold lineLeft
  split
  · exact .refl s
  · exact .of_keeps (withPli_keeps s _) (by rfl) rfl
  · exact .of_keeps (withPli_keeps s _) (by rfl) rfl

theorem feedbackSlot_change (message : List Byte) (s : State) {t : State} (h : exec (.feedbackReceived message) s = .next t) :
    Change s t := by
  cases h
  split
  · exact .of_keeps (withDp_keeps s _) (by rfl) rfl
  · exact .refl s

theorem pauseCounts_change (s : State) : Change s (pauseCounts s) := ⟨pauseCounts_keeps s, pauseCounts_cause s⟩

theorem jointExpiry_turn (s : State) : Turn s (jointExpiry s) := .of_keeps (jointExpiry_keeps s) (by rfl)

/-! ### The commands -/

/-- The command is none of those that may change the windows, Pass Memory, own rank or interval count. -/
def keepsStore : Instr → Bool
  | .powerUp _ => false
  | .intervalClockExpiry _ => false
  | .passLoad _ => false
  | .regionLoad _ => false
  | _ => true

theorem store_cases (c : Instr) : (∃ l, c = .powerUp l) ∨ (∃ o, c = .intervalClockExpiry o) ∨ (∃ bs, c = .passLoad bs)
    ∨ (∃ bs, c = .regionLoad bs) ∨ keepsStore c = true := by
  cases c <;> simp [keepsStore]

theorem exec_change {c : Instr} (hc : keepsStore c = true) (h : exec c s = .next t) : Change s t := by
  cases c with
  | powerUp l => cases hc
  | intervalClockExpiry o => cases hc
  | passLoad bs => cases hc
  | regionLoad bs => cases hc
  | feedbackReceived m => exact feedbackSlot_change m s h
  | neighbourTableAgeing => cases h; exact (ageingEvent_turn s).settle.change
  | entryGoesSilent r => cases h; exact (ageingEvent_turn s).change.gated (.refl s)
  | travelComputation => cases h; exact (travelEvent_turn s).settle.change
  | stall => cases h; exact (travelEvent_turn s).change.gated (.refl s)
  | holdExpired => cases h; exact (travelEvent_turn s).change.gated (.refl s)
  | headExpiryWork => cases h; exact (headExpiry_turn _ s).settle.change
  | spinTimeout => cases h; exact (headExpiry_turn _ s).change.gated (.refl s)
  | plungeTimeout => cases h; exact (headExpiry_turn _ s).change.gated (.refl s)
  | dwellEnd => cases h; exact (headExpiry_turn _ s).change.gated (.refl s)
  | forceLost => cases h; exact (headExpiry_turn _ s).change.gated (.refl s)
  | retractTimeout => cases h; exact (headExpiry_turn _ s).change.gated (.refl s)
  | pendingRetractStart => cases h; exact (headExpiry_turn _ s).change.gated (.refl s)
  | jointUnitExpiry => cases h; exact (jointExpiry_turn s).settle.change
  | coolingRunsOut => cases h; exact (jointExpiry_turn s).change.gated (.refl s)
  | pauseEnd => cases h; exact (pauseCounts_change s).gated (.refl s)
  | feedbackLost => cases h; exact (portWork_turn s).change.gated (.refl s)
  | demandMessage => cases h; exact .of_keeps (withDp_keeps s _) (by rfl) rfl
  | beaconPeriodDue => cases h; exact (periodWork_turn s).change.gated (.refl s)
  | holdOffEnd => cases h; exact (holdOffWork_turn s).settle.change
  | frameStart rivals => cases h; exact lineStarts_change rivals s
  | frameLeftLine => cases h; exact lineLeft_change s
  | frameDiscarded bs => cases h; exact receptionEnds_change s
  | beacon bs => cases h; exact onFrame_change _ bs (fun f x => (beaconTaken_turn f x).change) s
  | heldRecordStart => cases h; exact (startHeld_turn s).settle.change
  | halt bs => cases h; exact onFrame_change _ bs (fun _ x => (haltTaken_turn x).change) s
  | lineReset bs => cases h; exact onFrame_change _ bs (fun _ x => lineResetTaken_change x) s
  | lineResetTakesEffect => cases h; exact Change.ite (.refl s) (lineResetEffect_turn s).settle.change
  | setup bs => cases h; exact onFrame_change _ bs setupTaken_change s
  | jobStart bs => cases h; exact onFrame_change _ bs jobStartTaken_change s
  | jobClear bs => cases h; exact onFrame_change _ bs (fun _ x => jobClearTaken_change x) s
  | override bs => cases h; exact onFrame_change _ bs overrideTaken_change s
  | statusRequestStation bs => cases h; exact onFrame_change _ bs stationRequest_change s
  | statusRequestCompletion bs => cases h; exact onFrame_change _ bs completionRequest_change s
  | statusRequestAttention bs => cases h; exact onFrame_change _ bs attentionRequest_change s
  | statusRequestJoints bs =>
    cases h; exact onFrame_change _ bs (fun f x => Change.ite (queueReply_change _ x) (.refl x)) s
  | statusRequestFormat bs =>
    cases h; exact onFrame_change _ bs (fun f x => Change.ite (queueReply_change _ x) (.refl x)) s
  | feedbackTaken => cases h; exact (takeFeedback_turn _ s).settle.change
  | spinUpComplete => cases h; exact (takeFeedback_turn _ s).change.gated (.refl s)
  | plungeComplete => cases h; exact (takeFeedback_turn _ s).change.gated (.refl s)
  | retractComplete => cases h; exact (takeFeedback_turn _ s).change.gated (.refl s)
  | recordClose => cases h; exact (executorCloses_turn s).settle.change
  | emergencyStopAsserted => cases h; exact Change.ite (.refl s) (estopAsserted_turn s).settle.change
  | emergencyStopReleased => cases h; exact .of_keeps (withDp_keeps s _) (by rfl) rfl
  | clampLineFalse => cases h; exact (clampOpens_turn s).change.gated (.refl s)
  | clampLineTrue => cases h; exact .of_keeps (withDp_keeps s _) (by rfl) rfl

/-- R160: an expiry adds one to the interval count before the blocks work. -/
theorem exec_expiry_change {o : ExpiryOrder} (h : exec (.intervalClockExpiry o) s = .next t) :
    Change { s with clock := s.clock + 1 } t := by
  cases h
  exact (orderedWork_turn o _).settle.change

/-- R67, R69: the records of a PASS LOAD are written in a station that is not RUNNING. -/
theorem exec_passLoad_effect {bs : List Byte} (h : exec (.passLoad bs) s = .next t) :
    Keeps [.pm, .pli] s t ∧ (s.su.station = .running → t.pm = s.pm) := by
  have taken (f : ReceivedFrame) (x : State) :
      Keeps [.pm, .pli] x (passLoadTaken f x) ∧ (x.su.station = .running → (passLoadTaken f x).pm = x.pm) := by
    refine ⟨(withPli_keeps _ _).via (((withPm_keeps x _).mono (by rfl)).ite (Keeps.refl _ x)) (by rfl), fun hr => ?_⟩
    have busy : passLoadResult x.su.station f.payload = .busy := if_pos hr
    simp [passLoadTaken, busy, queueReply]
  have ends : Keeps [.pm, .pli] s (receptionEnds s) := (withPli_keeps s _).mono (by rfl)
  cases h
  unfold onFrame
  split
  · exact ⟨ends, fun _ => rfl⟩
  · next f _ =>
    obtain ⟨k, hr⟩ := taken f (receptionEnds s)
    refine ⟨(settle_keeps _).via (ends.trans k) (by rfl), fun h => ?_⟩
    exact (settle_keeps _ .pm (by simp)).trans (hr h)

/-- R53: a REGION LOAD replaces a window in a station that is not RUNNING. -/
theorem exec_regionLoad_effect {bs : List Byte} (h : exec (.regionLoad bs) s = .next t) :
    Keeps [.rm, .pli] s t ∧ (s.su.station = .running → t.rm = s.rm) := by
  have taken (f : ReceivedFrame) (x : State) :
      Keeps [.rm, .pli] x (regionLoadTaken f x) ∧ (x.su.station = .running → (regionLoadTaken f x).rm = x.rm) := by
    refine ⟨(withPli_keeps _ _).via ((withRm_keeps x _).mono (by rfl)) (by rfl), fun hr => ?_⟩
    have busy : regionLoadResult x.su.station f.payload = .busy := if_pos hr
    simp [regionLoadTaken, regionLoadWindows, busy, queueReply]
  have ends : Keeps [.rm, .pli] s (receptionEnds s) := (withPli_keeps s _).mono (by rfl)
  cases h
  unfold onFrame
  split
  · exact ⟨ends, fun _ => rfl⟩
  · next f _ =>
    obtain ⟨k, hr⟩ := taken f (receptionEnds s)
    refine ⟨(settle_keeps _).via (ends.trans k) (by rfl), fun h => ?_⟩
    exact (settle_keeps _ .rm (by simp)).trans (hr h)

theorem Change.resetCause (h : Change s t) :
    t.su.resetCause = s.su.resetCause ∨ (t.su.resetCause = .lineReset ∧ t.su.station = .unconfigured) :=
  h.cause.imp id (fun ⟨c, d⟩ => ⟨c, d.1⟩)

/-- Settles O7: power-up, the expiry and the two loads apart, a command works with operations of the chain, which leave all
of this alone but for a LINE RESET. -/
theorem keptByOtherCommands : Obligations.KeptByOtherCommands := by
  intro c s t h
  rcases store_cases c with ⟨l, rfl⟩ | ⟨o, rfl⟩ | ⟨bs, rfl⟩ | ⟨bs, rfl⟩ | hc
  · cases h
    exact ⟨.inr ⟨l, rfl⟩, .inr (.inl ⟨l, rfl⟩), (fun _ hx => nomatch hx), .inr (.inl ⟨l, rfl, rfl⟩),
      .inr (.inl ⟨l, rfl, fun _ => rfl⟩), .inr (.inl ⟨l, rfl⟩)⟩
  · have change := exec_expiry_change h
    have clock : t.clock = s.clock + 1 := change.kept .clock (by simp [chainParts])
    refine ⟨.inl (change.kept .ownRank (by simp [chainParts])), .inr (.inr ⟨o, rfl⟩), fun _ _ => ?_,
      change.resetCause.imp id .inr, .inl (change.kept .pm (by simp [chainParts])),
      .inl (change.kept .rm (by simp [chainParts]))⟩
    rw [clock]
    exact BitVec.toNat_add _ _
  · obtain ⟨kept, running⟩ := exec_passLoad_effect h
    refine ⟨.inl (kept .ownRank (by simp)), .inl (kept .clock (by simp)), (fun _ hx => nomatch hx),
      .inl (cause_of_keeps kept (by simp)), ?_, .inl (kept .rm (by simp))⟩
    by_cases hr : s.su.station = .running
    · exact .inl (running hr)
    · exact .inr (.inr ⟨hr, bs, rfl⟩)
  · obtain ⟨kept, running⟩ := exec_regionLoad_effect h
    refine ⟨.inl (kept .ownRank (by simp)), .inl (kept .clock (by simp)), (fun _ hx => nomatch hx),
      .inl (cause_of_keeps kept (by simp)), .inl (kept .pm (by simp)), ?_⟩
    by_cases hr : s.su.station = .running
    · exact .inl (running hr)
    · exact .inr (.inr ⟨hr, bs, rfl⟩)
  · have change := exec_change hc h
    refine ⟨.inl (change.kept .ownRank (by simp [chainParts])), .inl (change.kept .clock (by simp [chainParts])), ?_,
      change.resetCause.imp id .inr, .inl (change.kept .pm (by simp [chainParts])),
      .inl (change.kept .rm (by simp [chainParts]))⟩
    rintro o rfl
    cases hc

end Sys2Proof.Machine

namespace Sys2Proof.Machine

variable {s t : State}

/-! ### The chain, as the discipline sees it

`Disciplined` looks at a few items of six blocks. `chainView` is those items, `Fits` the discipline of them, and each
operation has one equation that says what it makes of the view. -/

/-- The items of a station that the discipline of a chain looks at. -/
structure ChainView where
  station : StationState
  resetPending : Bool
  executor : ExecutorState
  role : Role
  record : Option PassRecord
  decided : Option Decision
  head : HeadState
  weld : Option WeldParams
  retractPending : Bool
  phaseOpen : Bool
  target : Option MotionTarget
  estop : Bool
  /-- something stands as reported in the chain (R40, R176, R177) -/
  reported : Bool
  /-- the ids of the open joints -/
  ids : List Nat

/-- The ids of the open joints (R125). -/
def JointUnit.ids (u : JointUnit) : List Nat := u.openList.map (fun e => e.id)

def chainView (s : State) : ChainView where
  station := s.su.station
  resetPending := s.su.lineResetPending
  executor := s.px.state
  role := s.px.role
  record := s.px.record
  decided := s.px.decided
  head := s.hs.state
  weld := s.hs.weld
  retractPending := s.hs.retractPending
  phaseOpen := s.tg.phaseOpen
  target := s.tg.target
  estop := s.dp.estop
  reported := s.tg.followReported || s.dp.lostReported || s.dp.driveReported
  ids := s.ju.ids

namespace ChainView

/-- As `Settling`. -/
def Settles (c : ChainView) : Prop :=
  c.head = .parked ∨ c.head = .retracting ∨ (c.head = .stirring ∧ c.retractPending = true)

/-- As `HeadFits`. -/
def HeadOk (c : ChainView) : Prop :=
  match c.executor with
  | .idle => c.head.working = false
  | .stopped => c.head.working = false
  | .fetching =>
    match c.role with
    | .fresh => c.head = .parked
    | .continuation => c.head = .stirring
  | .waitSlot => c.head = .parked
  | .active => if c.record.bind PassRecord.kind = some .weld then c.head.working = true else c.head = .parked
  | .awaitHeadEnd => c.Settles
  | .halting => c.Settles

/-- As `RecordFits`. -/
def RecordOk (c : ChainView) : Prop :=
  match c.executor with
  | .waitSlot => ∃ r, c.record = some r ∧ r.kind = some .weld ∧ c.role = .fresh ∧ r.leadId ≠ 0 ∧ r.leadId ∉ c.ids
  | .active => ∃ r, c.record = some r ∧ c.target.map (fun t => t.kind) = r.travelKind
      ∧ (r.kind = some .weld → ∃ w, c.weld = some w ∧ w.cont = r.cont)
  | .fetching => c.role = .continuation → c.weld.isSome = true
  | .awaitHeadEnd => ∀ r, c.record = some r → ∀ e, c.decided = some e → e.kind = .complete → r.continues = false
  | _ => True

/-- R125. -/
def JointsOk (c : ChainView) : Prop := c.ids.length ≤ Config.jointCapacity ∧ c.ids.Nodup

/-- As `Disciplined`. -/
structure Fits (c : ChainView) : Prop where
  station : StationExecutor c.station c.executor
  head : c.HeadOk
  record : c.RecordOk
  travel : c.phaseOpen = true → c.executor = .active ∧ ∃ t, c.target = some t ∧ (t.kind = .weld → c.head = .stirring)
  target : c.target ≠ none → c.executor = .active ∨ c.executor = .awaitHeadEnd ∨ c.executor = .halting
  pendingRetract : c.retractPending = true →
    (c.head = .stirring ∨ c.head = .retracting) ∧ (c.executor = .halting ∨ c.executor = .awaitHeadEnd)
  stopped : c.estop = true → c.head = .parked ∨ c.head = .halted
  decided : (c.executor = .awaitHeadEnd → c.decided.isSome = true)
    ∧ (c.executor = .halting → c.decided = some ⟨.halted, none⟩)
  resetPending : c.resetPending = true →
    (c.station = .running ∧ (c.executor = .halting ∨ c.executor = .awaitHeadEnd)
        ∧ ∃ e, c.decided = some e ∧ ¬ NormalEnd e)
      ∨ (c.station ≠ .running ∧ c.head = .retracting)
  unconfigured : c.station = .unconfigured → (c.head = .parked ∨ c.head = .halted) ∧ c.reported = false
  joints : c.JointsOk

end ChainView

open ChainView

theorem disciplined_iff (s : State) : Disciplined s ↔ (chainView s).Fits := by
  have marks : (s.tg.followReported || s.dp.lostReported || s.dp.driveReported) = false
      ↔ s.tg.followReported = false ∧ s.dp.lostReported = false ∧ s.dp.driveReported = false := by
    simp [and_assoc]
  constructor
  · rintro ⟨h1, h2, h3, h4, h5, h6, h7, h8, h9, h10, h11, h12⟩
    exact ⟨h1, h2, h3, h4, h5, h6, h7, h8, h9, fun h => ⟨(h10 h).1, marks.mpr (h10 h).2⟩, by simpa [JointsOk,
        chainView, JointUnit.ids] using ⟨h11, h12⟩⟩
  · rintro ⟨h1, h2, h3, h4, h5, h6, h7, h8, h9, h10, h11⟩
    exact ⟨h1, h2, h3, h4, h5, h6, h7, h8, h9, fun h => ⟨(h10 h).1, marks.mp (h10 h).2⟩, by simpa [JointsOk,
        chainView, JointUnit.ids] using h11⟩

theorem Disciplined.congr (h : Disciplined s) (e : chainView t = chainView s) : Disciplined t :=
  (disciplined_iff t).mpr (e ▸ (disciplined_iff s).mp h)

end Sys2Proof.Machine

namespace Sys2Proof.Machine

open ChainView

variable {s t : State}

/-! ### What each operation makes of the view -/

/-- An operation on other parts leaves the view alone. -/
theorem chainView_of_keeps {l : List Part} (h : Keeps l s t) (hl : partsWithin l [.constants, .nt, .rm, .pm, .clock,
  .pli, .freeCount] = true) :
    chainView t = chainView s := by
  have k := h.mono hl
  have a : t.tg = s.tg := k .tg (by simp)
  have b : t.px = s.px := k .px (by simp)
  have c : t.hs = s.hs := k .hs (by simp)
  have d : t.ju = s.ju := k .ju (by simp)
  have e : t.dp = s.dp := k .dp (by simp)
  have f : t.su = s.su := k .su (by simp)
  simp only [chainView, a, b, c, d, e, f]

@[simp] theorem chainView_withPli (s : State) (x : PeerLine) : chainView (s.withPli x) = chainView s := rfl
@[simp] theorem chainView_withNt (s : State) (x : NeighbourTable) : chainView (s.withNt x) = chainView s := rfl
@[simp] theorem chainView_withFree (s : State) (x : Nat) : chainView (s.withFree x) = chainView s := rfl
@[simp] theorem chainView_noteChange (s : State) : chainView (noteChange s) = chainView s := rfl
@[simp] theorem chainView_receptionEnds (s : State) : chainView (receptionEnds s) = chainView s := rfl
@[simp] theorem chainView_settle (s : State) : chainView (settle s) = chainView s :=
  chainView_of_keeps (settle_keeps s) (by rfl)

@[simp] theorem chainView_withPx (s : State) (x : PassExecutor) : chainView (s.withPx x) =
    { chainView s with executor := x.state, role := x.role, record := x.record, decided := x.decided } := rfl
@[simp] theorem chainView_withHs (s : State) (x : HeadSequencer) : chainView (s.withHs x) =
    { chainView s with head := x.state, weld := x.weld, retractPending := x.retractPending } := rfl
@[simp] theorem chainView_withTg (s : State) (x : TravelGovernor) : chainView (s.withTg x) = { chainView s with
    phaseOpen := x.phaseOpen, target := x.target
    reported := x.followReported || s.dp.lostReported || s.dp.driveReported } := rfl
@[simp] theorem chainView_withDp (s : State) (x : DrivePort) : chainView (s.withDp x) = { chainView s with
    estop := x.estop, reported := s.tg.followReported || x.lostReported || x.driveReported } := rfl
@[simp] theorem chainView_withSu (s : State) (x : StatusUnit) : chainView (s.withSu x) =
    { chainView s with station := x.station, resetPending := x.lineResetPending } := rfl
@[simp] theorem chainView_withJu (s : State) (x : JointUnit) : chainView (s.withJu x) =
    { chainView s with ids := x.ids } := rfl

@[simp] theorem chainView_setStation (x : StationState) (s : State) :
    chainView (setStation x s) = { chainView s with station := x } := by
  obtain ⟨l, he, _⟩ := setStation_eq x s
  rw [he]
  rfl

@[simp] theorem chainView_setExecutor (x : ExecutorState) (s : State) :
    chainView (setExecutor x s) = { chainView s with executor := x } := by
  obtain ⟨l, he, _⟩ := setExecutor_eq x s
  rw [he]
  rfl

@[simp] theorem chainView_enterHead (x : HeadState) (s : State) :
    chainView (enterHead x s) = { chainView s with head := x } := by
  obtain ⟨l, he, _⟩ := enterHead_eq x s
  rw [he]
  rfl

@[simp] theorem chainView_setIndex (i : Nat) (s : State) : chainView (setIndex i s) = chainView s := by
  obtain ⟨l, he, _⟩ := setIndex_eq i s
  rw [he]
  rfl

@[simp] theorem chainView_setCompletionPending (b : Bool) (s : State) :
    chainView (setCompletionPending b s) = chainView s := by
  obtain ⟨l, he, _⟩ := setCompletionPending_eq b s
  rw [he]
  rfl

@[simp] theorem chainView_setJoints (u : JointUnit) (s : State) :
    chainView (setJoints u s) = { chainView s with ids := u.ids } := by
  obtain ⟨l, he, _⟩ := setJoints_eq u s
  rw [he]
  rfl

@[simp] theorem chainView_raiseIf (b : Bool) (f : AttentionFlag) (s : State) : chainView (raiseIf b f s) = chainView s := by
  obtain ⟨l, he, _⟩ := raiseIf_eq b f s
  rw [he]
  rfl

@[simp] theorem chainView_raise (f : AttentionFlag) (s : State) : chainView (raise f s) = chainView s :=
  chainView_raiseIf true f s

@[simp] theorem chainView_clearFlags (s : State) : chainView (clearFlags s) = chainView s := by
  obtain ⟨l, he, _⟩ := clearFlags_eq s
  rw [he]
  rfl

@[simp] theorem chainView_notifyFetch (r : PassRecord) (s : State) : chainView (notifyFetch r s) = chainView s := by
  unfold notifyFetch
  split
  · exact chainView_raise .notify s
  · rfl

@[simp] theorem chainView_withdrawTarget (s : State) :
    chainView (withdrawTarget s) = { chainView s with target := none, phaseOpen := false } := rfl

@[simp] theorem chainView_immediateStop (s : State) :
    chainView (immediateStop s) = { chainView s with phaseOpen := false } := rfl

@[simp] theorem chainView_decideEnd (e : Decision) (s : State) :
    chainView (decideEnd e s) = { chainView s with decided := some e } := rfl

@[simp] theorem chainView_giveTarget (m : MotionTarget) (d : Direction) (b : Bool) (s : State) :
    chainView (giveTarget m d b s) = { chainView s with target := some m, phaseOpen := b } := rfl

@[simp] theorem chainView_fileSecondary (d : Detail) (s : State) : chainView (fileSecondary d s) = chainView s := by
  rw [fileSecondary_eq]
  rfl

/-! ### The joints' ids -/

theorem LeftStirring.ids {u : JointUnit} (h : LeftStirring s u) : u.ids = s.ju.ids := by
  refine List.ext_getElem? (fun i => ?_)
  simp only [JointUnit.ids, List.getElem?_map]
  cases hi : s.ju.openList[i]? with
  | none =>
    rw [List.getElem?_eq_none_iff] at hi
    rw [List.getElem?_eq_none_iff.mpr (h.length ▸ hi)]
  | some e =>
    by_cases hp : Passed s e
    · rw [h.passed i e hi hp]
      rfl
    · rw [h.others i e hi hp]

theorem ids_afterClose (k : EndKind) (u : JointUnit) : (afterClose k u).ids = u.ids := by
  simp only [JointUnit.ids, afterClose, openAfterClose, List.map_map]
  refine List.map_congr_left (fun e _ => ?_)
  simp only [Function.comp_apply]
  split
  · split <;> rfl
  · rfl

@[simp] theorem chainView_closeJoints (k : EndKind) (s : State) : chainView (closeJoints k s) = chainView s := by
  obtain ⟨l, he, _⟩ := closeJoints_eq k s
  rw [he]
  simp [chainView, ids_afterClose]

@[simp] theorem chainView_releaseTest (s : State) : s.hs.state = .stirring → chainView (releaseTest s) = chainView s := by
  intro h
  obtain ⟨l, u, he, _, hu⟩ := releaseTest_eq s h
  rw [he]
  simp [chainView, hu.ids]

/-! ### The head -/

/-- R112, R126: RETRACTING is entered, the travel phase closing with STIRRING. -/
@[simp] theorem chainView_enterRetracting (s : State) : chainView (enterRetracting s) = { chainView s with
    head := .retracting, phaseOpen := s.tg.phaseOpen && decide (s.hs.state ≠ .stirring) } := by
  obtain ⟨l, u, he, _, hu⟩ := enterRetracting_eq s
  rw [he]
  simp [chainView, hu.ids]

/-- R115. -/
theorem chainView_faultRetract (s : State) : chainView (faultRetract s) =
    if s.hs.state.working then { chainView s with
      head := .retracting, retractPending := false, phaseOpen := s.tg.phaseOpen && decide (s.hs.state ≠ .stirring) }
    else chainView s := by
  unfold faultRetract
  split
  · rw [chainView_withHs, chainView_enterRetracting]
    obtain ⟨l, u, he, _, hu⟩ := enterRetracting_eq s
    rw [he]
    rfl
  · rfl

@[simp] theorem chainView_enterHalted (s : State) : chainView (enterHalted s) =
    { chainView s with head := .halted, retractPending := false, weld := none } := by
  obtain ⟨l, he, _⟩ := enterHalted_eq s
  rw [he]
  rfl

@[simp] theorem chainView_enterParked (s : State) : chainView (enterParked s) =
    { chainView s with head := .parked, retractPending := false, weld := none } := by
  obtain ⟨l, he, _⟩ := enterParked_eq s
  rw [he]
  rfl

@[simp] theorem chainView_enterStirring (w : WeldParams) (s : State) : chainView (enterStirring w s) =
    { chainView s with head := .stirring, phaseOpen := s.tg.target.isSome } := by
  obtain ⟨l, he, _⟩ := enterStirring_eq w s
  rw [he]
  rfl

@[simp] theorem chainView_spinUp (w : WeldParams) (s : State) : chainView (spinUp w s) =
    { chainView s with head := .spinningUp, weld := some w } := by
  obtain ⟨l, he, _⟩ := enterHead_eq .spinningUp s
  rw [spinUp, he]
  rfl

/-! ### Resets and ends -/

/-- R167: a LINE RESET leaves UNCONFIGURED, with no chain and no joints; head state and stop line stay. -/
def ChainView.resetTo (c : ChainView) : ChainView where
  station := .unconfigured
  resetPending := false
  executor := .idle
  role := .fresh
  record := none
  decided := none
  head := c.head
  weld := none
  retractPending := false
  phaseOpen := false
  target := none
  estop := c.estop
  reported := false
  ids := []

@[simp] theorem chainView_lineResetEffect (s : State) : chainView (lineResetEffect s) = (chainView s).resetTo := rfl

/-- R89, R91, R92, R95: what a chain's end leaves. -/
def ChainView.endedWith (e : Decision) (c : ChainView) : ChainView :=
  if c.resetPending then c.resetTo
  else { c with
    station := if e.kind.normal then .idle else .stopped
    executor := if e.kind.normal then .idle else .stopped
    decided := none, record := none, target := none, phaseOpen := false }

theorem chainView_endChain (e : Decision) (s : State) : chainView (endChain e s) =
    if s.su.lineResetPending then (chainView s).resetTo
    else { chainView s with
      station := if e.kind.normal then .idle else .stopped
      executor := if e.kind.normal then .idle else .stopped, decided := none, record := none } := by
  simp only [endChain, setCompletionPending_su, State.withPx_su, State.withFree_su]
  split
  · rw [chainView_lineResetEffect, chainView_setCompletionPending]
    rfl
  · cases e.kind.normal <;> simp <;> rfl

@[simp] theorem chainView_closeStopping (e : Decision) (s : State) :
    chainView (closeStopping e s) = (chainView s).endedWith e := by
  have pending : (withdrawTarget (closeJoints e.kind s)).su.lineResetPending = (chainView s).resetPending :=
    congrArg ChainView.resetPending (chainView_closeJoints e.kind s)
  rw [closeStopping, chainView_endChain, pending, endedWith, chainView_withdrawTarget, chainView_closeJoints]
  rfl

end Sys2Proof.Machine

namespace Sys2Proof.Machine

open ChainView

variable {s t : State}

/-! ### The chain's end keeps the discipline -/

theorem StationExecutor.running_iff {x : StationState} {y : ExecutorState} (h : StationExecutor x y) :
    x = .running ↔ y ≠ .idle ∧ y ≠ .stopped := by
  cases x <;> cases y <;> simp_all [StationExecutor]

/-- A chain may end: the head PARKED or HALTED, no retract pending. -/
structure ChainView.Closable (c : ChainView) : Prop where
  head : c.head = .parked ∨ c.head = .halted
  pendingRetract : c.retractPending = false
  joints : c.JointsOk

/-- R45, R167: a LINE RESET that takes effect with the head PARKED or HALTED. -/
theorem ChainView.resetTo_fits {c : ChainView} (h : c.head = .parked ∨ c.head = .halted) : c.resetTo.Fits where
  station := rfl
  head := by
    show c.head.working = false
    rcases h with h | h <;> rw [h] <;> rfl
  record := trivial
  travel := by rintro ⟨⟩
  target hn := absurd rfl hn
  pendingRetract := by rintro ⟨⟩
  stopped _ := h
  decided := ⟨by rintro ⟨⟩, by rintro ⟨⟩⟩
  resetPending := by rintro ⟨⟩
  unconfigured _ := ⟨h, rfl⟩
  joints := ⟨Nat.zero_le _, List.nodup_nil⟩

/-- R91, R92, R95. -/
theorem ChainView.Closable.endedWith_fits {c : ChainView} (h : c.Closable) (e : Decision) : (c.endedWith e).Fits := by
  unfold endedWith
  split
  · exact resetTo_fits h.head
  · next hp =>
    have idle : c.head.working = false := by rcases h.head with hh | hh <;> rw [hh] <;> rfl
    have head := h.head
    have pending := h.pendingRetract
    have joints := h.joints
    cases e.kind.normal
    · exact ⟨rfl, idle, trivial, by simp, by simp, by simp [pending], fun _ => head, by simp, by simp [hp], by simp, joints⟩
    · exact ⟨rfl, idle, trivial, by simp, by simp, by simp [pending], fun _ => head, by simp, by simp [hp], by simp, joints⟩

/-! ### The fetch -/

/-- What a fetch finds, from its begin to its end: the station RUNNING with no target, no retract and no LINE RESET pending,
the head PARKED in the fresh role and STIRRING in the continuation role (R71, R75). -/
structure ChainView.FetchReady (role : Role) (c : ChainView) : Prop where
  running : c.station = .running
  noReset : c.resetPending = false
  noRetract : c.retractPending = false
  noTarget : c.target = none
  phaseClosed : c.phaseOpen = false
  fresh : role = .fresh → c.head = .parked
  continuation : role = .continuation → c.head = .stirring ∧ c.weld.isSome = true ∧ c.estop = false
  joints : c.JointsOk

theorem ChainView.FetchReady.closable {c : ChainView} (h : c.FetchReady .fresh) : c.Closable :=
  ⟨.inl (h.fresh rfl), h.noRetract, h.joints⟩

/-- R114: a normal retract of a head that is PARKED or at work leaves it PARKED, RETRACTING, or STIRRING with the retract
pending. -/
theorem normalRetract_settles (hp : (chainView s).phaseOpen = false) (hr : (chainView s).retractPending = false)
    (hh : (chainView s).head.working = true ∨ (chainView s).head = .parked) :
    ∃ x b, chainView (normalRetract s) = { chainView s with head := x, retractPending := b }
      ∧ (x = .parked ∨ x = .retracting ∨ (x = .stirring ∧ b = true)) ∧ (b = true → x = .stirring ∨ x = .retracting) := by
  unfold normalRetract
  split
  · next h => exact ⟨.stirring, true, by rw [chainView_withHs, h.1]; rfl, .inr (.inr ⟨rfl, rfl⟩), fun _ => .inl rfl⟩
  · split
    · refine ⟨.retracting, false, ?_, .inr (.inl rfl), by simp⟩
      rw [chainView_enterRetracting, show s.tg.phaseOpen = false from hp, Bool.false_and]
      simp only [chainView, show s.tg.phaseOpen = false from hp, show s.hs.retractPending = false from hr]
    · next hw =>
      have parked := hh.resolve_left hw
      exact ⟨.parked, false, by rw [← parked, ← hr], .inl rfl, by simp⟩

/-! ### Ends that wait -/

/-- A chain whose end `e` is decided and waits for the head and for v at 0 (R71, R86, R93). -/
structure ChainView.Waits (e : Decision) (c : ChainView) : Prop where
  executor : (c.executor = .awaitHeadEnd ∧ (e.kind = .complete → ∀ r, c.record = some r → r.continues = false))
    ∨ (c.executor = .halting ∧ e = ⟨.halted, none⟩)
  decided : c.decided = some e
  running : c.station = .running
  settles : c.Settles
  phaseClosed : c.phaseOpen = false
  pendingRetract : c.retractPending = true → c.head = .stirring ∨ c.head = .retracting
  stopped : c.estop = true → c.head = .parked
  resetPending : c.resetPending = true → ¬ NormalEnd e
  joints : c.JointsOk

theorem ChainView.Waits.fits {c : ChainView} {e : Decision} (h : c.Waits e) : c.Fits := by
  obtain ⟨hx, hd, hr, hs, hp, hpr, hes, hreset, hj⟩ := h
  rcases hx with ⟨hx, hc⟩ | ⟨hx, rfl⟩
  · refine ⟨by simp [hx, hr, StationExecutor], by simpa [HeadOk, hx] using hs, ?_, by simp [hp], fun _ => .inr (.inl hx),
      fun h => ⟨hpr h, .inr hx⟩, fun h => .inl (hes h), by simp [hx, hd],
      fun h => .inl ⟨hr, .inr hx, e, hd, hreset h⟩, by simp [hr], hj⟩
    simp only [RecordOk, hx]
    intro r hr' d hd' hk
    cases hd.symm.trans hd'
    exact hc hk r hr'
  · exact ⟨by simp [hx, hr, StationExecutor], by simpa [HeadOk, hx] using hs, by simp [RecordOk, hx], by simp [hp],
      fun _ => .inr (.inr hx), fun h => ⟨hpr h, .inl hx⟩, fun h => .inl (hes h), by simp [hx, hd],
      fun h => .inl ⟨hr, .inl hx, _, hd, hreset h⟩, by simp [hr], hj⟩

theorem ChainView.Settles.not_halted {c : ChainView} (h : c.Settles) : c.head ≠ .halted := by
  rcases h with h | h | h <;> simp [h]

theorem ChainView.Fits.waits {c : ChainView} (h : c.Fits) (hx : c.executor = .awaitHeadEnd ∨ c.executor = .halting) :
    ∃ e, c.Waits e := by
  have settles : c.Settles := by
    have hh := h.head
    rcases hx with hx | hx <;> simpa only [HeadOk, hx] using hh
  have decided : ∃ e, c.decided = some e ∧ ((c.executor = .awaitHeadEnd ∧
      (e.kind = .complete → ∀ r, c.record = some r → r.continues = false)) ∨ (c.executor = .halting ∧ e = ⟨.halted,
        none⟩)) := by
    rcases hx with hx | hx
    · obtain ⟨e, he⟩ := Option.isSome_iff_exists.mp (h.decided.1 hx)
      have hr := h.record
      simp only [RecordOk, hx] at hr
      exact ⟨e, he, .inl ⟨hx, fun hk r hr' => hr r hr' e he hk⟩⟩
    · exact ⟨_, h.decided.2 hx, .inr ⟨hx, rfl⟩⟩
  have running : c.station = .running := by
    rw [h.station.running_iff]
    rcases hx with hx | hx <;> simp [hx]
  obtain ⟨e, he, hcase⟩ := decided
  refine ⟨e, hcase, he, running, settles, ?_, fun hp => (h.pendingRetract hp).1,
    fun hs => (h.stopped hs).resolve_right settles.not_halted, fun hp => ?_, h.joints⟩
  · by_contra ho
    have ha := (h.travel (by simpa using ho)).1
    rcases hx with hx | hx <;> rw [ha] at hx <;> cases hx
  · rcases h.resetPending hp with ⟨_, _, d, hd, hn⟩ | ⟨hn, _⟩
    · cases he.symm.trans hd
      exact hn
    · exact absurd running hn

/-- At rest a chain whose end waits may end. -/
theorem ChainView.Waits.closable {c : ChainView} {e : Decision} (h : c.Waits e) (hp : c.head = .parked) : c.Closable := by
  refine ⟨.inl hp, ?_, h.joints⟩
  by_contra hr
  have := h.pendingRetract (by simpa using hr)
  simp [hp] at this

theorem atRest_head (h : atRest s = true) : (chainView s).head = .parked := by
  simp only [atRest, Bool.and_eq_true, beq_iff_eq] at h
  exact h.2

/-! ### The fetch fails or begins -/

/-- R79. -/
theorem programCheck_fits (d : Detail) (h : (chainView s).FetchReady s.px.role) : (chainView (programCheck d s)).Fits := by
  unfold programCheck
  extract_lets e x u v w
  have checked : chainView u = chainView s := by simp only [u, chainView_raise]; rfl
  have role : u.px.role = s.px.role := congrArg ChainView.role checked
  rw [← checked, ← role] at h
  split
  · next hr =>
    rw [hr] at h
    rw [chainView_closeStopping]
    exact h.closable.endedWith_fits _
  · next hr =>
    rw [hr] at h
    obtain ⟨stirring, _, noStop⟩ := h.continuation rfl
    have waiting : chainView v = { chainView u with
        executor := .awaitHeadEnd, decided := some e, target := none, phaseOpen := false } := by
      simp only [v, chainView_setExecutor, chainView_decideEnd, chainView_withdrawTarget]
    obtain ⟨x, b, retracts, hx, hb⟩ := normalRetract_settles (s := v) (by rw [waiting])
      (by rw [waiting]; exact h.noRetract) (by rw [waiting]; exact .inl (by rw [stirring]; rfl))
    have waits : (chainView w).Waits e := by
      rw [show chainView w = _ from retracts, waiting]
      exact ⟨.inl ⟨rfl, by rintro ⟨⟩⟩, rfl, h.running, hx, rfl, hb, by simp [noStop], by simp [h.noReset], h.joints⟩
    split
    · next hrest =>
      rw [chainView_closeStopping]
      exact (waits.closable (atRest_head hrest)).endedWith_fits _
    · exact waits.fits

/-- The items of the executor that the discipline looks at and a fetch writes. -/
theorem chainView_takeIndex (i : Nat) (s : State) : chainView (takeIndex i s) =
    { chainView s with record := some (readRecord (setIndex i s).pm i) } := by
  unfold takeIndex
  rw [chainView_notifyFetch, chainView_withPx, setIndex_px, chainView_setIndex]
  rfl

/-- R75. -/
theorem beginFetch_fits {role : Role} (i : Nat) (h : (chainView s).FetchReady role) :
    (chainView (beginFetch role i s)).Fits := by
  unfold beginFetch
  extract_lets x u
  have begun : chainView u = { chainView s with executor := .fetching, role := role, decided := none } := by
    simp only [u, chainView_setExecutor]; rfl
  have role' : u.px.role = role := congrArg ChainView.role begun
  obtain ⟨h1, h2, h3, h4, h5, h6, h7, h8⟩ := h
  split
  · refine programCheck_fits _ ?_
    rw [show (u.withPx { u.px with record := none }).px.role = role from role', chainView_withPx, begun]
    exact ⟨h1, h2, h3, h4, h5, h6, h7, h8⟩
  · rw [chainView_takeIndex, begun]
    refine ⟨by simp [h1, StationExecutor], ?_, fun hr => (h7 hr).2.1, by simp [h5], by simp [h4], by simp [h3], fun hs => ?_,
      by simp, by simp [h2], by simp [h1], h8⟩
    · cases role
      · exact h6 rfl
      · exact (h7 rfl).1
    · cases role
      · exact .inl (h6 rfl)
      · have := (h7 rfl).2.2
        simp_all

end Sys2Proof.Machine

namespace Sys2Proof.Machine

open ChainView

variable {s t : State}

/-! ### Record start -/

/-- A record that may start: it is the one in hand, a continuation is a WELD, and the id of its lead part is not open
(R77, R78). -/
structure MayStart (r : PassRecord) (s : State) : Prop where
  ready : (chainView s).FetchReady s.px.role
  inHand : s.px.record = some r
  works : ∃ k, r.kind = some k ∧ k ≠ .branch
  continuation : s.px.role = .continuation → r.kind = some .weld
  newLead : s.px.role = .fresh → r.kind = some .weld → r.leadId ≠ 0 → r.leadId ∉ s.ju.ids

/-- R125, R131: a record's joint parts add its lead id at most, in the fresh role. -/
theorem ids_startJoints (r : PassRecord) (d : Direction) (s : State) :
    ∃ u l, startJoints r d s = setJoints u s ∧ u.ids = s.ju.ids ++ l
      ∧ (l = [] ∨ (l = [r.leadId] ∧ s.px.role = .fresh ∧ r.leadId ≠ 0)) := by
  unfold startJoints
  extract_lets u v
  have trail : v.ids = u.ids := by
    unfold v
    split
    · split <;> rfl
    · rfl
  refine ⟨v, ?_⟩
  rw [trail]
  unfold u
  split
  · next hr _ =>
    split
    · exact ⟨[], rfl, by simp, .inl rfl⟩
    · next hl => exact ⟨[r.leadId], rfl, by simp [openJoint, JointUnit.ids], .inr ⟨rfl, hr, hl⟩⟩
  · exact ⟨[], rfl, by simp, .inl rfl⟩

theorem chainView_startJoints (r : PassRecord) (d : Direction) (s : State) :
    ∃ l, chainView (startJoints r d s) = { chainView s with ids := (chainView s).ids ++ l }
      ∧ (l = [] ∨ (l = [r.leadId] ∧ s.px.role = .fresh ∧ r.leadId ≠ 0)) := by
  obtain ⟨u, l, he, hu, hl⟩ := ids_startJoints r d s
  exact ⟨l, by rw [he, chainView_setJoints, hu]; rfl, hl⟩

/-- A record that has started and leaves the head as it is (R81, R102). -/
theorem started_fits {c : ChainView} {r : PassRecord} (running : c.station = .running)
    (noReset : c.resetPending = false) (noRetract : c.retractPending = false) (inHand : c.record = some r)
    (executor : c.executor = .active) (noStop : c.estop = false)
    (target : c.target.map (fun t => t.kind) = r.travelKind)
    (phase : c.phaseOpen = true → c.target ≠ none ∧ (r.kind = some .weld → c.head = .stirring))
    (head : if r.kind = some .weld then c.head.working = true ∧ ∃ w, c.weld = some w ∧ w.cont = r.cont
      else c.head = .parked) (joints : c.JointsOk) : c.Fits where
  station := by simp [running, executor, StationExecutor]
  head := by
    simp only [HeadOk, executor, inHand, Option.bind_some]
    split <;> simp_all
  record := by
    simp only [RecordOk, executor]
    exact ⟨r, inHand, target, fun hw => by rw [if_pos hw] at head; exact head.2⟩
  travel ho := by
    obtain ⟨ht, hs⟩ := phase ho
    obtain ⟨m, hm⟩ := Option.ne_none_iff_exists'.mp ht
    refine ⟨executor, m, hm, fun hk => hs ?_⟩
    rw [hm, Option.map_some, hk] at target
    unfold PassRecord.travelKind at target
    split at target <;> simp_all
  target _ := .inl executor
  pendingRetract := by simp [noRetract]
  stopped := by simp [noStop]
  decided := by simp [executor]
  resetPending := by simp [noReset]
  unconfigured := by simp [running]
  joints := joints

theorem travelKind_weld {r : PassRecord} (h : r.kind = some .weld) : r.travelKind = some .weld := by
  simp [PassRecord.travelKind, h]

theorem MayStart.parked {r : PassRecord} (h : MayStart r s) (hr : s.px.role = .fresh) : (chainView s).head = .parked :=
  h.ready.fresh hr

/-- R81, R86, R101: a fresh WELD starts, or its record closes with CLAMP_OPEN. -/
theorem startFreshWeld_fits {r : PassRecord} (h : MayStart r s) (hk : r.kind = some .weld) (hf : s.px.role = .fresh)
    (hx : s.px.state = .active) (hs : s.dp.estop = false) (room : r.leadId ≠ 0 → s.ju.ids.length < Config.jointCapacity) :
    (chainView (startFreshWeld r s)).Fits := by
  unfold startFreshWeld
  extract_lets d u v
  obtain ⟨l, hv, hl⟩ := chainView_startJoints r d u
  have ready := h.ready
  have view : chainView v = { chainView s with
      target := some ⟨.weld, r.endPos, r.rate⟩, phaseOpen := false, ids := (chainView s).ids ++ l } := hv
  have parked : v.hs.state = .parked := (congrArg ChainView.head view).trans (h.parked hf)
  have joints : (chainView v).JointsOk := by
    rw [view]
    obtain ⟨h1, h2⟩ := ready.joints
    rcases hl with rfl | ⟨rfl, _, hne⟩
    · simpa [JointsOk] using ⟨h1, h2⟩
    · have hlen := room hne
      refine ⟨by simpa [chainView] using hlen, ?_⟩
      have := h.newLead hf hk hne
      exact List.Nodup.append h2 (List.nodup_singleton _) (by simpa [List.disjoint_singleton, chainView] using this)
  split
  · rw [chainView_spinUp, view]
    refine started_fits ready.running ready.noReset ready.noRetract h.inHand hx hs (travelKind_weld hk).symm
      (by simp) ?_ (view ▸ joints)
    rw [if_pos hk]
    exact ⟨rfl, _, rfl, rfl⟩
  · next taken =>
    have clampOpen : v.hs.state = .parked ∧ v.dp.clamp = false := by
      refine ⟨parked, ?_⟩
      have estop : v.dp.estop = false := (congrArg ChainView.estop view).trans hs
      have running : v.su.station = .running := (congrArg ChainView.station view).trans ready.running
      simpa [weldTaken, parked, estop, running] using taken
    rw [if_pos clampOpen, Sys2Proof.Machine.clampOpen, chainView_closeStopping, chainView_raise]
    refine Closable.endedWith_fits ⟨.inl parked, ?_, joints⟩ _
    rw [view]
    exact ready.noRetract

/-- R81, R102: a continuation. -/
theorem startContinuation_fits {r : PassRecord} (h : MayStart r s) (hc : s.px.role = .continuation)
    (hx : s.px.state = .active) : (chainView (startContinuation r s)).Fits := by
  have hk := h.continuation hc
  have ready := h.ready
  obtain ⟨stirring, hw, noStop⟩ := ready.continuation hc
  obtain ⟨w, hw⟩ := Option.isSome_iff_exists.mp hw
  unfold startContinuation
  extract_lets d u v
  obtain ⟨l, hv, hl⟩ := chainView_startJoints r d u
  have hl : l = [] := hl.resolve_right (fun h => by
    have := h.2.1
    rw [show u.px.role = s.px.role from rfl, hc] at this
    cases this)
  have view : chainView v = { chainView s with target := some ⟨.weld, r.endPos, r.rate⟩, phaseOpen := true } := by
    rw [show chainView v = _ from hv, hl, List.append_nil]
    rfl
  have stirs : v.hs.state = .stirring := (congrArg ChainView.head view).trans stirring
  have weld : v.hs.weld = some w := (congrArg ChainView.weld view).trans hw
  have continued : chainView (continueWeld r.rpm r.setpoint r.cont v) = { chainView v with
      weld := some { w with rpm := r.rpm, setpoint := r.setpoint, cont := r.cont } } := by
    simp only [continueWeld, stirs, weld]
    rw [chainView_withHs]
    simp only [chainView, stirs]
  rw [continued, view]
  refine started_fits ready.running ready.noReset ready.noRetract h.inHand hx noStop (travelKind_weld hk).symm
    (fun _ => ⟨by simp, fun _ => stirring⟩) ?_ ready.joints
  rw [if_pos hk]
  exact ⟨by rw [stirring]; rfl, _, rfl, rfl⟩

/-- R81, R82: a record that may start does, or waits, or finds the stop line asserted. -/
theorem startRecord_fits {r : PassRecord} (h : MayStart r s) : (chainView (startRecord r s)).Fits := by
  have ready := h.ready
  obtain ⟨k, hk, hb⟩ := h.works
  unfold startRecord
  split
  · next hw =>
    simp only [mustWait, Bool.and_eq_true, beq_iff_eq, bne_iff_ne] at hw
    obtain ⟨⟨⟨hweld, hf⟩, hl⟩, _⟩ := hw
    have parked := h.parked hf
    rw [chainView_setExecutor]
    exact ⟨by simp [ready.running, StationExecutor], parked, ⟨r, h.inHand, hweld, hf, hl, h.newLead hf hweld hl⟩,
      by simp [ready.phaseClosed], by simp [ready.noTarget], by simp [ready.noRetract], fun _ => .inl parked, by simp,
      by simp [ready.noReset], by simp [ready.running], ready.joints⟩
  · next hw =>
    unfold handRecordOn
    split
    · next hs =>
      rw [chainView_closeStopping]
      refine Closable.endedWith_fits (FetchReady.closable ?_) _
      cases hr : s.px.role with
      | fresh => exact hr ▸ ready
      | continuation =>
        have := (ready.continuation hr).2.2
        rw [show s.dp.estop = false from this] at hs
        cases hs
    · next hs =>
      extract_lets u
      have view : chainView u = { chainView s with executor := .active } := chainView_setExecutor .active s
      have role : u.px.role = s.px.role := congrArg ChainView.role view
      have active : u.px.state = .active := congrArg ChainView.executor view
      have noStop : u.dp.estop = false := (congrArg ChainView.estop view).trans (Bool.eq_false_iff.mpr hs)
      have ids : u.ju.ids = s.ju.ids := congrArg ChainView.ids view
      have starts : MayStart r u := by
        refine ⟨?_, (congrArg ChainView.record view).trans h.inHand, h.works, role ▸ h.continuation, ?_⟩
        · rw [view, role]
          exact ⟨ready.running, ready.noReset, ready.noRetract, ready.noTarget, ready.phaseClosed, ready.fresh,
            ready.continuation, ready.joints⟩
        · rw [role, ids]
          exact h.newLead
      have travels (m : Option MotionTarget) (b : Bool) (hm : m.map (fun t => t.kind) = r.travelKind)
          (hb : b = true → m ≠ none) (hne : r.kind ≠ some .weld) :
          Fits { chainView u with target := m, phaseOpen := b } := by
        have hf : s.px.role = .fresh := by
          cases hr : s.px.role with
          | fresh => rfl
          | continuation => exact absurd (h.continuation hr) hne
        have r' := starts.ready
        refine started_fits r'.running r'.noReset r'.noRetract starts.inHand active noStop hm
          (fun ho => ⟨hb ho, fun hw => absurd hw hne⟩) ?_ r'.joints
        rw [if_neg hne]
        exact starts.parked (role.trans hf)
      split
      · next hk =>
        exact travels (some ⟨.move, r.endPos, r.rate⟩) true (by simp [PassRecord.travelKind, hk]) (by simp) (by simp [hk])
      · next hk =>
        exact travels (some ⟨.dry, r.endPos, r.rate⟩) true (by simp [PassRecord.travelKind, hk]) (by simp) (by simp [hk])
      · next hk =>
        have target : (chainView u).target = none := by rw [view]; exact ready.noTarget
        have closed : (chainView u).phaseOpen = false := by rw [view]; exact ready.phaseClosed
        have := travels (chainView u).target (chainView u).phaseOpen (by simp [PassRecord.travelKind, hk, target])
          (by simp [closed]) (by simp [hk])
        exact this
      · next hk =>
        split
        · next hf =>
          refine startFreshWeld_fits starts hk hf active noStop (fun hl => ?_)
          rw [ids]
          have hf' := role.symm.trans hf
          simpa [mustWait, hk, hf', hl, JointUnit.ids] using hw
        · next hc => exact startContinuation_fits starts hc active
      · next h1 h2 h3 h4 => cases k <;> simp_all

end Sys2Proof.Machine

namespace Sys2Proof.Machine

open ChainView

variable {s t : State}

/-! ### The fetch ends -/

/-- R77, R78: checks 1 and 10 of a record that passes. -/
theorem judgeRecord_eq_none {k : RecordKind} {r : PassRecord} (h : judgeRecord s k r = none) :
    (s.px.role = .continuation → k = .weld) ∧ (k = .weld → r.leadId ≠ 0 → r.leadId ∉ s.ju.ids) := by
  unfold judgeRecord at h
  split at h
  · have hall := firstFailure_eq_none h
    have kind := hall (s.px.role == .continuation && k != .weld, .continueKind) (by simp)
    have duplicate := hall (k == .weld && r.leadId != 0 && s.ju.openList.any (fun e => e.id == r.leadId), .jointDuplicate)
      (by simp)
    constructor
    · intro hr
      simpa [hr] using kind
    · rintro rfl hl
      simpa [hl, JointUnit.ids] using duplicate
  · have hall := firstFailure_eq_none h
    have kind := hall (s.px.role == .continuation && k != .weld, .continueKind) (by simp)
    have place := hall (travels k, .startMismatch) (by simp)
    constructor
    · intro hr
      simpa [hr] using kind
    · rintro rfl
      cases place

/-- R77 and on: a record is judged in the fetch that found it. -/
theorem judgeAndStart_fits {k : RecordKind} {r : PassRecord} (ready : (chainView s).FetchReady s.px.role)
    (inHand : s.px.record = some r) (hk : r.kind = some k) (hb : k ≠ .branch) :
    (chainView (judgeAndStart k r s)).Fits := by
  unfold judgeAndStart
  split
  · exact programCheck_fits _ ready
  · next hj =>
    obtain ⟨continuation, newLead⟩ := judgeRecord_eq_none hj
    exact startRecord_fits ⟨ready, inHand, ⟨k, hk, hb⟩, fun hr => continuation hr ▸ hk,
      fun _ hw => newLead (by simpa [hk] using hw)⟩

/-- R76. -/
theorem followBranch_fits (r : PassRecord) (ready : (chainView s).FetchReady s.px.role) :
    (chainView (followBranch r s)).Fits := by
  unfold followBranch
  split
  · exact programCheck_fits _ ready
  · extract_lets u t x v
    have view : chainView v = { chainView s with record := some t } := by
      have named : chainView u = chainView s := chainView_setIndex _ s
      rw [← named]
      exact chainView_notifyFetch _ _
    have ready : (chainView v).FetchReady v.px.role := by
      rw [show v.px.role = s.px.role from congrArg ChainView.role view, view]
      obtain ⟨h1, h2, h3, h4, h5, h6, h7, h8⟩ := ready
      exact ⟨h1, h2, h3, h4, h5, h6, h7, h8⟩
    split
    · exact programCheck_fits _ ready
    · exact programCheck_fits _ ready
    · next k hb hk => exact judgeAndStart_fits ready (congrArg ChainView.record view) hk hb

/-- R75: a fetch under way is ready to end. -/
theorem ChainView.Fits.fetchReady {c : ChainView} (h : c.Fits) (hx : c.executor = .fetching) : c.FetchReady c.role := by
  have head := h.head
  have record := h.record
  simp only [HeadOk, RecordOk, hx] at head record
  have running : c.station = .running := by simp [h.station.running_iff, hx]
  refine ⟨running, ?_, ?_, ?_, ?_, fun hr => by simpa [hr] using head, fun hr => ?_, h.joints⟩
  · by_contra hn
    have := h.resetPending (by simpa using hn)
    simp [hx, running] at this
  · by_contra hn
    have := h.pendingRetract (by simpa using hn)
    simp [hx] at this
  · by_contra hn
    have := h.target hn
    simp [hx] at this
  · by_contra hn
    have := h.travel (by simpa using hn)
    simp [hx] at this
  · rw [hr] at head
    refine ⟨head, record hr, ?_⟩
    by_contra hn
    have := h.stopped (by simpa using hn)
    simp [show c.head = .stirring from head] at this

/-- R76 to R81. -/
theorem completeFetch_fits (h : (chainView s).Fits) (hx : s.px.state = .fetching) :
    (chainView (completeFetch s)).Fits := by
  have ready := h.fetchReady hx
  unfold completeFetch
  extract_lets first x u
  have ready : (chainView u).FetchReady u.px.role := ready
  split
  · exact programCheck_fits _ ready
  · next r hr =>
    split
    · exact programCheck_fits _ ready
    · split
      · exact programCheck_fits _ ready
      · exact followBranch_fits r ready
    · next k hb hk => exact judgeAndStart_fits ready hr hk hb

/-! ### A record closes -/

/-- R89: only a COMPLETE record with CONTINUE is followed in the continuation role, and only a normal end is followed. -/
theorem nextFetch_eq_some {k : EndKind} {o : Option PassRecord} {i j : Nat} {role : Role}
    (h : nextFetch k o i = some (role, j)) :
    k.normal = true ∧ (role = .continuation → k = .complete ∧ ∃ r, o = some r ∧ r.continues = true) := by
  cases o with
  | none => cases h
  | some r =>
    cases k with
    | complete =>
      simp only [nextFetch] at h
      refine ⟨rfl, ?_⟩
      rintro rfl
      split at h
      · exact ⟨rfl, r, rfl, by assumption⟩
      · split at h <;> cases h
    | short =>
      simp only [nextFetch] at h
      refine ⟨rfl, ?_⟩
      rintro rfl
      split at h <;> cases h
    | voidAlt =>
      simp only [nextFetch] at h
      refine ⟨rfl, ?_⟩
      rintro rfl
      split at h <;> cases h
    | _ => cases h

/-- R89: the record closes, and the chain ends or its next fetch begins. -/
theorem closeRecord_fits {e : Decision} (hd : s.px.decided = some e)
    (next : ∀ role i, nextFetch e.kind s.px.record s.px.index = some (role, i) →
      ({ chainView s with target := none, phaseOpen := false } : ChainView).FetchReady role)
    (last : nextFetch e.kind s.px.record s.px.index = none → (chainView s).Closable) :
    (chainView (closeRecord s)).Fits := by
  unfold closeRecord
  split
  · next hn => cases hd.symm.trans hn
  · next d hd' =>
    cases hd.symm.trans hd'
    split
    · next hn =>
      rw [chainView_closeStopping]
      exact (last hn).endedWith_fits e
    · next role i hn =>
      refine beginFetch_fits i ?_
      have view : chainView (withdrawTarget (closeJoints e.kind s))
          = { chainView s with target := none, phaseOpen := false } := by
        rw [chainView_withdrawTarget, chainView_closeJoints]
      rw [chainView_withPx]
      exact view ▸ next role i hn

/-- A chain that waits and is at rest closes its record. -/
theorem closeIfRest_fits {e : Decision} (h : (chainView s).Waits e) : (chainView (closeIfRest s)).Fits := by
  unfold closeIfRest
  split
  · next hrest =>
    have parked := atRest_head hrest
    refine closeRecord_fits h.decided (fun role i hn => ?_) (fun _ => h.closable parked)
    obtain ⟨normal, continued⟩ := nextFetch_eq_some hn
    have noReset : (chainView s).resetPending = false := by
      by_contra hp
      exact h.resetPending (by simpa using hp) ((normal_iff e).mp normal)
    refine ⟨h.running, noReset, (h.closable parked).pendingRetract, rfl, rfl, fun _ => parked, fun hr => ?_, h.joints⟩
    obtain ⟨hk, r, hr', hc⟩ := continued hr
    rcases h.executor with ⟨_, hx⟩ | ⟨_, rfl⟩
    · have := hx hk r hr'
      rw [hc] at this
      cases this
    · cases hk
  · exact h.fits

/-- R71: the executor's turn while it waits for rest. -/
theorem closeIfRest_of_fits (h : (chainView s).Fits) (hx : s.px.state = .awaitHeadEnd ∨ s.px.state = .halting) :
    (chainView (closeIfRest s)).Fits := by
  obtain ⟨e, he⟩ := h.waits hx
  exact closeIfRest_fits he

/-- R84, R86: an end is decided and waits. -/
theorem awaitEnd_fits {e : Decision} (running : (chainView s).station = .running)
    (normal : e.kind = .complete → ∀ r, s.px.record = some r → r.continues = false)
    (settles : (chainView s).Settles) (phaseClosed : (chainView s).phaseOpen = false)
    (pendingRetract : (chainView s).retractPending = true → (chainView s).head = .stirring ∨ (chainView s).head = .retracting)
    (stopped : (chainView s).estop = true → (chainView s).head = .parked)
    (noReset : (chainView s).resetPending = false) (joints : (chainView s).JointsOk) :
    (chainView (awaitEnd e s)).Fits := by
  refine closeIfRest_fits (e := e) ?_
  rw [chainView_setExecutor, chainView_decideEnd]
  exact ⟨.inl ⟨rfl, normal⟩, rfl, running, settles, phaseClosed, pendingRetract, stopped, by simp [noReset], joints⟩

/-! ### The executor's turn -/

theorem ChainView.Fits.noReset_of_active {c : ChainView} (h : c.Fits) (hx : c.executor = .active) :
    c.resetPending = false := by
  have running : c.station = .running := by simp [h.station.running_iff, hx]
  by_contra hn
  have := h.resetPending (by simpa using hn)
  simp [hx, running] at this

theorem ChainView.Fits.noRetract_of_active {c : ChainView} (h : c.Fits) (hx : c.executor = .active) :
    c.retractPending = false := by
  by_contra hn
  have := h.pendingRetract (by simpa using hn)
  simp [hx] at this

/-- R81: a PAUSE counts, and closes at 0. -/
theorem pauseCounts_fits (h : (chainView s).Fits) (hp : pausing s = true) : (chainView (pauseCounts s)).Fits := by
  simp only [pausing, Bool.and_eq_true, beq_iff_eq] at hp
  obtain ⟨hx, hk⟩ := hp
  unfold pauseCounts
  extract_lets x u
  have view : chainView u = chainView s := rfl
  rw [← view] at h
  split
  · have active : (chainView u).executor = .active := hx
    have parked : (chainView u).head = .parked := by
      have := h.head
      simp only [HeadOk, active] at this
      rw [show (chainView u).record = s.px.record from rfl, hk] at this
      simpa using this
    have running : (chainView u).station = .running := by simp [h.station.running_iff, active]
    refine closeRecord_fits (e := ⟨.complete, none⟩) rfl (fun role i hn => ?_)
      (fun _ => ⟨.inl parked, h.noRetract_of_active active, h.joints⟩)
    refine ⟨running, h.noReset_of_active active, h.noRetract_of_active active, rfl, rfl, fun _ => parked, fun hr => ?_,
      h.joints⟩
    obtain ⟨_, r, hr', hc⟩ := (nextFetch_eq_some hn).2 hr
    have : r.kind = some .pause := by
      rw [show s.px.record = some r from hr'] at hk
      exact hk
    simp [PassRecord.continues, this] at hc
  · exact h

/-- R71, R81. -/
theorem executorTurn_fits (h : (chainView s).Fits) : (chainView (executorTurn s)).Fits := by
  unfold executorTurn
  split
  · next hp => exact pauseCounts_fits h hp
  · unfold executorCloses
    split
    · next hw => exact closeIfRest_of_fits h (by simpa [waitingForRest] using hw)
    · split
      · next hx => exact completeFetch_fits h hx
      · exact h

end Sys2Proof.Machine

namespace Sys2Proof.Machine

open ChainView

variable {s t : State}

/-! ### Causes -/

/-- What a cause finds: the discipline, but for the head of a chain, which its own fault retract may have left (R115). -/
structure ChainView.Stoppable (c : ChainView) : Prop where
  resting : c.executor = .idle ∨ c.executor = .stopped → c.Fits
  running : c.executor ≠ .idle ∧ c.executor ≠ .stopped → c.station = .running
  fresh : c.executor = .waitSlot ∨ (c.executor = .fetching ∧ c.role = .fresh) → c.head = .parked
  head : c.station = .running → c.head ≠ .halted
  pendingRetract : c.retractPending = true → c.head = .stirring ∨ c.head = .retracting
  stopped : c.estop = true → c.head = .parked ∨ c.head = .halted
  waits : c.executor = .awaitHeadEnd ∨ c.executor = .halting → ∃ e, c.decided = some e
    ∧ ((c.executor = .awaitHeadEnd ∧ (e.kind = .complete → ∀ r, c.record = some r → r.continues = false))
      ∨ (c.executor = .halting ∧ e = ⟨.halted, none⟩))
    ∧ (c.resetPending = true → ¬ NormalEnd e)
  noReset : c.station = .running → c.resetPending = true → c.executor = .awaitHeadEnd ∨ c.executor = .halting
  joints : c.JointsOk

theorem ChainView.Fits.head_of_running {c : ChainView} (h : c.Fits) (hr : c.station = .running) : c.head ≠ .halted := by
  have head := h.head
  have hx := h.station.running_iff.mp hr
  cases hc : c.executor <;> simp only [HeadOk, hc] at head
  case idle => exact absurd hc hx.1
  case stopped => exact absurd hc hx.2
  case fetching => split at head <;> simp [head]
  case waitSlot => simp [head]
  case active =>
    split at head
    · rintro h
      simp [h, HeadState.working] at head
    · simp [head]
  case awaitHeadEnd => exact Settles.not_halted head
  case halting => exact Settles.not_halted head

theorem ChainView.Fits.stoppable {c : ChainView} (h : c.Fits) : c.Stoppable where
  resting _ := h
  running hx := h.station.running_iff.mpr hx
  fresh hx := by
    have head := h.head
    rcases hx with hx | ⟨hx, hr⟩
    · simpa only [HeadOk, hx] using head
    · simpa only [HeadOk, hx, hr] using head
  head := h.head_of_running
  pendingRetract hp := (h.pendingRetract hp).1
  stopped := h.stopped
  waits hx := by
    obtain ⟨e, he⟩ := h.waits hx
    exact ⟨e, he.decided, he.executor, he.resetPending⟩
  noReset hr hp := by
    rcases h.resetPending hp with ⟨_, hx, _⟩ | ⟨hn, _⟩
    · exact hx.symm
    · exact absurd hr hn
  joints := h.joints

/-- R113, R173: with no chain, the phase closing changes nothing. -/
theorem ChainView.Fits.phaseClosed_of_rest {c : ChainView} (h : c.Fits) (hx : c.executor ≠ .active) :
    c.phaseOpen = false := by
  by_contra hp
  exact hx (h.travel (by simpa using hp)).1

/-- R39: an immediate stop keeps the discipline, and what a cause may find. -/
theorem ChainView.Fits.closePhase {c : ChainView} (h : c.Fits) : ({ c with phaseOpen := false } : ChainView).Fits :=
  ⟨h.station, h.head, h.record, by simp, h.target, h.pendingRetract, h.stopped, h.decided, h.resetPending, h.unconfigured,
    h.joints⟩

theorem ChainView.Stoppable.closePhase {c : ChainView} (h : c.Stoppable) :
    ({ c with phaseOpen := false } : ChainView).Stoppable :=
  ⟨fun hx => (h.resting hx).closePhase, h.running, h.fresh, h.head, h.pendingRetract, h.stopped, h.waits, h.noReset, h.joints⟩

/-- R115: a head at work means a chain, and not one that is at rest by its state. -/
theorem ChainView.Fits.busy_of_working {c : ChainView} (h : c.Fits) (hw : c.head.working = true) :
    c.executor ≠ .idle ∧ c.executor ≠ .stopped := by
  have head := h.head
  constructor <;> intro hx <;> simp only [HeadOk, hx] at head <;> rw [head] at hw <;> cases hw

/-- R115: a fault retract leaves what a cause may find. -/
theorem faultRetract_stoppable (h : (chainView s).Stoppable) : (chainView (faultRetract s)).Stoppable := by
  rw [chainView_faultRetract]
  split
  · next hw =>
    have busy : s.px.state ≠ .idle ∧ s.px.state ≠ .stopped := by
      constructor
      · intro hx
        exact ((h.resting (.inl hx)).busy_of_working hw).1 hx
      · intro hx
        exact ((h.resting (.inr hx)).busy_of_working hw).2 hx
    have unparked : s.hs.state ≠ .parked := by
      intro hp
      rw [hp] at hw
      cases hw
    refine ⟨fun hx => ?_, h.running, fun hx => absurd (h.fresh hx) unparked, by simp, by simp, fun hs => ?_, h.waits,
      h.noReset, h.joints⟩
    · rcases hx with hx | hx
      · exact absurd hx busy.1
      · exact absurd hx busy.2
    · rcases h.stopped hs with hp | hp <;> rw [show s.hs.state = _ from hp] at hw <;> cases hw
  · exact h

/-- R115: the target withdrawn and the head asked for a fault retract, the head is PARKED or RETRACTING, with no retract
pending but its own. -/
theorem withdrawnRetract (h : (chainView s).Stoppable) (running : s.su.station = .running) :
    ∃ x b, chainView (faultRetract (withdrawTarget s))
        = { chainView s with head := x, retractPending := b, target := none, phaseOpen := false }
      ∧ (x = .parked ∨ x = .retracting) ∧ (b = true → x = .retracting) ∧ (s.dp.estop = true → x = .parked) := by
  rw [chainView_faultRetract, chainView_withdrawTarget]
  split
  · next hw =>
    refine ⟨.retracting, false, rfl, .inr rfl, by simp, fun hs => ?_⟩
    rcases h.stopped hs with hp | hp <;> rw [show (withdrawTarget s).hs.state = _ from hp] at hw <;> cases hw
  · next hw =>
    have halted := h.head running
    have pending := h.pendingRetract
    have stopped := h.stopped
    refine ⟨s.hs.state, s.hs.retractPending, rfl, ?_⟩
    simp only [chainView, withdrawTarget, State.withTg_hs] at hw halted pending stopped
    cases hh : s.hs.state <;> simp_all [HeadState.working]

/-- R80, R82, R86, R87, R90: a stopping cause keeps the discipline. -/
theorem stoppingCause_fits {e : Decision} (d : Detail) (he : e.kind.normal = false) (h : (chainView s).Stoppable) :
    (chainView (stoppingCause e d s)).Fits := by
  have stops : ¬ NormalEnd e := by
    rw [← normal_iff, he]
    simp
  have closes (hf : (chainView s).head = .parked) : (chainView (closeStopping e s)).Fits := by
    rw [chainView_closeStopping]
    refine Closable.endedWith_fits ⟨.inl hf, ?_, h.joints⟩ e
    by_contra hp
    have := h.pendingRetract (by simpa using hp)
    simp [hf] at this
  have awaits (hx : s.px.state ≠ .idle ∧ s.px.state ≠ .stopped) (hn : s.px.state ≠ .awaitHeadEnd ∧ s.px.state ≠ .halting) :
      (chainView (awaitEnd e (faultRetract (withdrawTarget s)))).Fits := by
    have running : s.su.station = .running := h.running hx
    obtain ⟨x, b, view, hx', hb, hs⟩ := withdrawnRetract h running
    have noReset : (chainView s).resetPending = false := by
      by_contra hp
      rcases h.noReset running (by simpa using hp) with hq | hq
      · exact hn.1 hq
      · exact hn.2 hq
    refine awaitEnd_fits ?_ (fun hk => absurd (.inl hk) stops) ?_ ?_ ?_ ?_ ?_ ?_ <;> rw [view]
    · exact running
    · exact hx'.imp_right .inl
    · exact fun hb' => .inr (hb hb')
    · exact hs
    · exact noReset
    · exact h.joints
  have waiting (hx : s.px.state = .awaitHeadEnd ∨ s.px.state = .halting) :
      ∃ d', s.px.decided = some d' ∧ (chainView (faultRetract (withdrawTarget s))).Waits d' ∧ (s.px.state = .awaitHeadEnd →
        (chainView (decideEnd e (faultRetract (withdrawTarget s)))).Waits e) := by
    have running : s.su.station = .running := h.running (by rcases hx with hx | hx <;> simp [chainView, hx])
    obtain ⟨x, b, view, hx', hb, hs⟩ := withdrawnRetract h running
    obtain ⟨d', hd, hcase, hreset⟩ := h.waits hx
    refine ⟨d', hd, ?_, fun ha => ?_⟩
    · rw [view]
      exact ⟨hcase, hd, running, hx'.imp_right .inl, rfl, fun hb' => .inr (hb hb'), hs, hreset, h.joints⟩
    · rw [chainView_decideEnd, view]
      exact ⟨.inl ⟨ha, fun hk => absurd (.inl hk) stops⟩, rfl, running, hx'.imp_right .inl, rfl, fun hb' => .inr (hb hb'), hs,
        fun _ => stops, h.joints⟩
  unfold stoppingCause
  split
  · next hx => exact h.resting (.inl hx)
  · next hx => exact h.resting (.inr hx)
  · next hx => exact closes (h.fresh (.inl hx))
  · next hx =>
    split
    · next hr => exact closes (h.fresh (.inr ⟨hx, hr⟩))
    · exact awaits (by simp [hx]) (by simp [hx])
  · next hx => exact awaits (by simp [hx]) (by simp [hx])
  · next hx =>
    obtain ⟨d', hd, hw, hw'⟩ := waiting (.inl hx)
    extract_lets u
    split
    · rw [chainView_fileSecondary]
      exact hw.fits
    · exact (hw' hx).fits
  · next hx =>
    obtain ⟨d', hd, hw, _⟩ := waiting (.inr hx)
    rw [chainView_fileSecondary]
    exact hw.fits

theorem faultCause_fits (d : Detail) (h : (chainView s).Stoppable) : (chainView (faultCause d s)).Fits :=
  stoppingCause_fits d rfl (by rwa [chainView_raise])

theorem headFault_fits (d : Detail) (h : (chainView s).Stoppable) : (chainView (headFault d s)).Fits :=
  faultCause_fits d (faultRetract_stoppable h)

/-- R17, R87. -/
theorem conflictStop_fits (d : Detail) (h : (chainView s).Fits) : (chainView (conflictStop d s)).Fits := by
  unfold conflictStop
  split
  · extract_lets u
    have closed : (chainView u).Fits := h.closePhase
    split
    · exact closed
    · exact stoppingCause_fits d rfl closed.stoppable
  · exact h

theorem checkRankConflict_fits (h : (chainView s).Fits) : (chainView (checkRankConflict s)).Fits := by
  unfold checkRankConflict
  split
  · exact conflictStop_fits _ (by rwa [chainView_raise])
  · exact h

/-! ### Ends with the head HALTED (R88, R96, R113) -/

/-- What a head that has been halted, or stands PARKED, leaves of a chain or of none. -/
structure ChainView.Halted (c : ChainView) : Prop where
  closable : c.Closable
  station : StationExecutor c.station c.executor
  noTravel : c.executor = .idle ∨ c.executor = .stopped → c.phaseOpen = false ∧ c.target = none
  unconfigured : c.station = .unconfigured → c.reported = false

/-- With no chain, a held LINE RESET takes effect, and the discipline is kept (R169). -/
theorem heldReset_of_halted (h : (chainView s).Halted) (hx : s.px.state = .idle ∨ s.px.state = .stopped) :
    (chainView (heldResetEffect s)).Fits := by
  have head := h.closable.head
  have idle : s.su.station ≠ .running := by
    intro hr
    have := h.station.running_iff.mp hr
    rcases hx with hx | hx
    · exact this.1 hx
    · exact this.2 hx
  unfold heldResetEffect
  split
  · rw [chainView_lineResetEffect]
    exact resetTo_fits head
  · next hp =>
    have noReset : s.su.lineResetPending = false := by
      by_contra hq
      refine hp ?_
      have retracts : s.hs.state ≠ .retracting := by
        rcases head with hh | hh <;> simp [show s.hs.state = _ from hh]
      simp [show s.su.lineResetPending = true by simpa using hq, idle, retracts]
    obtain ⟨phase, target⟩ := h.noTravel hx
    have working : (chainView s).head.working = false := by rcases head with hh | hh <;> rw [hh] <;> rfl
    refine ⟨h.station, ?_, ?_, by simp [phase], by simp [target], by simp [h.closable.pendingRetract], fun _ => head, ?_, ?_,
      fun hu => ⟨head, h.unconfigured hu⟩, h.closable.joints⟩
    · rcases hx with hx | hx <;> simpa only [HeadOk, show (chainView s).executor = _ from hx] using working
    · rcases hx with hx | hx <;> simp only [RecordOk, show (chainView s).executor = _ from hx]
    · rcases hx with hx | hx <;> simp [show (chainView s).executor = _ from hx]
    · exact fun hq => absurd (show s.su.lineResetPending = true from hq) (by simp [noReset])

/-- No reset is held after a chain's end. -/
theorem heldResetEffect_closeStopping (e : Decision) (s : State) :
    heldResetEffect (closeStopping e s) = closeStopping e s := by
  have pending : (closeStopping e s).su.lineResetPending = false := by
    refine (congrArg ChainView.resetPending (chainView_closeStopping e s)).trans ?_
    unfold endedWith
    split
    · rfl
    · next hp => exact Bool.eq_false_iff.mpr hp
  simp [heldResetEffect, pending]

/-- R88, R90. -/
theorem estopCause_fits (h : (chainView s).Halted) : (chainView (heldResetEffect (estopCause s))).Fits := by
  have closes (e : Decision) (u : State) (hu : chainView u = chainView s) :
      (chainView (heldResetEffect (closeStopping e u))).Fits := by
    rw [heldResetEffect_closeStopping, chainView_closeStopping, hu]
    exact h.closable.endedWith_fits e
  unfold estopCause
  split
  · next hx => exact heldReset_of_halted h (.inl hx)
  · next hx => exact heldReset_of_halted h (.inr hx)
  · split
    · split
      · exact closes _ s rfl
      · exact closes _ _ (chainView_fileSecondary _ s)
    · exact closes _ s rfl
  · exact closes _ s rfl

/-- R86, R90, R96. -/
theorem retractTimeoutCause_fits (h : (chainView s).Halted) :
    (chainView (heldResetEffect (retractTimeoutCause s))).Fits := by
  unfold retractTimeoutCause
  extract_lets u
  have view : chainView u = chainView s := chainView_raise .fault s
  rw [← view] at h
  have closes (e : Decision) (v : State) (hv : chainView v = chainView u) :
      (chainView (heldResetEffect (closeStopping e v))).Fits := by
    rw [heldResetEffect_closeStopping, chainView_closeStopping, hv]
    exact h.closable.endedWith_fits e
  split
  · next hx => exact heldReset_of_halted h (.inl hx)
  · next hx => exact heldReset_of_halted h (.inr hx)
  · split
    · split
      · exact closes _ u rfl
      · exact closes _ _ (chainView_fileSecondary _ u)
    · exact closes _ u rfl

/-- R113. -/
theorem retractTimesOut_fits (h : (chainView s).Fits) : (chainView (retractTimesOut s)).Fits := by
  unfold retractTimesOut
  refine retractTimeoutCause_fits ?_
  rw [chainView_immediateStop, chainView_enterHalted]
  refine ⟨⟨.inr rfl, rfl, h.joints⟩, h.station, fun hx => ⟨rfl, ?_⟩, fun hu => (h.unconfigured hu).2⟩
  by_contra ht
  have := h.target ht
  rcases hx with hx | hx <;> simp [show (chainView s).executor = _ from hx] at this

/-- R178. -/
theorem estopAsserted_fits (h : (chainView s).Fits) : (chainView (estopAsserted s)).Fits := by
  unfold estopAsserted
  extract_lets x u v w
  refine estopCause_fits ?_
  have marks : (chainView s).station = .unconfigured → (chainView s).reported = false := fun hu => (h.unconfigured hu).2
  have target : (chainView s).executor = .idle ∨ (chainView s).executor = .stopped → (chainView s).target = none := by
    intro hx
    by_contra ht
    have := h.target ht
    rcases hx with hx | hx <;> simp [hx] at this
  have view : chainView v = { chainView s with estop := true, phaseOpen := false } := rfl
  unfold w
  split
  · next hp =>
    rw [view]
    have hp' : (chainView s).head = .parked ∨ (chainView s).head = .halted := hp
    refine ⟨⟨hp', ?_, h.joints⟩, h.station, fun hx => ⟨rfl, target hx⟩, marks⟩
    by_contra hr
    have := (h.pendingRetract (by simpa using hr)).1
    rcases hp' with hp' | hp' <;> simp [hp'] at this
  · rw [chainView_enterHalted, view]
    exact ⟨⟨.inr rfl, rfl, h.joints⟩, h.station, fun hx => ⟨rfl, target hx⟩, marks⟩

/-- R112: a head that is RETRACTING runs no record: its chain waits, or there is none. -/
theorem ChainView.Fits.resting_of_retracting {c : ChainView} (h : c.Fits) (hr : c.head = .retracting)
    (hw : ¬ (c.executor = .awaitHeadEnd ∨ c.executor = .halting)) : c.executor = .idle ∨ c.executor = .stopped := by
  have head := h.head
  cases hx : c.executor <;> simp only [HeadOk, hx] at head hw ⊢
  case fetching => split at head <;> simp [hr] at head
  case waitSlot => simp [hr] at head
  case active => split at head <;> simp [hr, HeadState.working] at head
  all_goals simp_all

/-- R166: with no chain the station may become IDLE. -/
theorem idle_fits (h : (chainView s).Fits) (hx : s.px.state = .idle ∨ s.px.state = .stopped)
    (noReset : s.su.lineResetPending = false) (hp : s.hs.retractPending = false) :
    (chainView (setStation .idle (setExecutor .idle s))).Fits := by
  rw [chainView_setStation, chainView_setExecutor]
  have busy : (chainView s).executor ≠ .active := by rcases hx with hx | hx <;> simp [chainView, hx]
  have phase := h.phaseClosed_of_rest busy
  have target : (chainView s).target = none := by
    by_contra ht
    have := h.target ht
    rcases hx with hx | hx <;> simp [show (chainView s).executor = _ from hx] at this
  have working : (chainView s).head.working = false := by
    have head := h.head
    rcases hx with hx | hx <;> simpa only [HeadOk, show (chainView s).executor = _ from hx] using head
  exact ⟨rfl, working, trivial, by simp [phase], by simp [target], fun hr => absurd (hp.symm.trans hr) (by simp), h.stopped,
    by simp, fun hr => absurd (noReset.symm.trans hr) (by simp), by simp, h.joints⟩

/-- R112: the head is PARKED. -/
theorem parked_fits (h : (chainView s).Fits) (hx : s.px.state = .idle ∨ s.px.state = .stopped)
    (noReset : s.su.lineResetPending = false) : (chainView (enterParked s)).Fits := by
  rw [chainView_enterParked]
  have noReset' : (chainView s).resetPending = false := noReset
  have hx' : (chainView s).executor = .idle ∨ (chainView s).executor = .stopped := hx
  refine ⟨h.station, ?_, ?_, fun hp => ?_, h.target, by simp, fun _ => .inl rfl, h.decided, by simp [noReset'],
    fun hu => ⟨.inl rfl, (h.unconfigured hu).2⟩, h.joints⟩
  · rcases hx' with hx | hx <;> simp [HeadOk, hx, HeadState.working]
  · rcases hx' with hx | hx <;> simp only [RecordOk, hx]
  · rw [h.phaseClosed_of_rest (by rcases hx' with hx | hx <;> simp [hx])] at hp
    cases hp

/-- R112, R120, R166, R169: the head end. -/
theorem headEnd_fits (h : (chainView s).Fits) (hr : s.hs.state = .retracting) :
    (chainView (headEnd (enterParked s))).Fits := by
  have view := chainView_enterParked s
  have px : (enterParked s).px = s.px := enterParked_keeps s .px (by decide)
  have su : (enterParked s).su = s.su := enterParked_keeps s .su (by decide)
  unfold headEnd
  split
  · next hw =>
    simp only [waitingForRest, Bool.or_eq_true, beq_iff_eq, px] at hw
    obtain ⟨e, he⟩ := h.waits hw
    refine closeIfRest_fits (e := e) ?_
    rw [view]
    exact ⟨he.executor, he.decided, he.running, .inl rfl, he.phaseClosed, by simp, by simp, he.resetPending, he.joints⟩
  · next hw =>
    simp only [waitingForRest, Bool.or_eq_true, beq_iff_eq, px] at hw
    split
    · rw [chainView_lineResetEffect, view]
      exact resetTo_fits (.inl rfl)
    · next hp =>
      have rest := h.resting_of_retracting hr hw
      have idle : s.su.station ≠ .running := by
        intro hr
        have := h.station.running_iff.mp hr
        rcases rest with hx | hx
        · exact this.1 hx
        · exact this.2 hx
      have noReset : s.su.lineResetPending = false := by
        rw [su] at hp
        simpa [idle] using hp
      have fits := parked_fits h rest noReset
      split
      · next hs => exact idle_fits fits (.inr hs) (su ▸ noReset) (congrArg ChainView.retractPending view)
      · exact fits

end Sys2Proof.Machine

namespace Sys2Proof.Machine

open ChainView

variable {s t : State}

/-! ### HALT and LINE RESET -/

theorem normalRetract_of_parked (h : s.hs.state = .parked) : normalRetract s = s := by
  simp [normalRetract, h, HeadState.working]

/-- R114: a chain's target withdrawn, the head is asked for a normal retract, and the end is awaited. -/
theorem haltingRetract_waits {b : Bool} (h : (chainView s).Fits) (hx : s.px.state = .fetching ∨ s.px.state = .active)
    (hh : (chainView s).head.working = true ∨ (chainView s).head = .parked) :
    (chainView (setExecutor .halting (decideEnd ⟨.halted, none⟩
      (normalRetract (withdrawTarget (s.withSu { s.su with lineResetPending := b })))))).Waits ⟨.halted, none⟩ := by
  have noRetract : (chainView s).retractPending = false := by
    by_contra hp
    have := (h.pendingRetract (by simpa using hp)).2
    rcases hx with hx | hx <;> simp [chainView, hx] at this
  have running : (chainView s).station = .running := by
    rw [h.station.running_iff]
    rcases hx with hx | hx <;> simp [chainView, hx]
  obtain ⟨x, c, view, settles, pending⟩ :=
    normalRetract_settles (s := withdrawTarget (s.withSu { s.su with lineResetPending := b })) rfl noRetract hh
  rw [chainView_setExecutor, chainView_decideEnd, view]
  refine ⟨.inr ⟨rfl, rfl⟩, rfl, running, settles, rfl, pending, fun hs => ?_, fun _ => by simp [NormalEnd], h.joints⟩
  have parked : (chainView s).head = .parked := by
    rcases h.stopped hs with hp | hp
    · exact hp
    · exact absurd hp (h.head_of_running running)
  rw [normalRetract_of_parked (show (withdrawTarget (s.withSu { s.su with lineResetPending := b })).hs.state = .parked
    from parked)] at view
  exact (congrArg ChainView.head view).symm.trans parked

/-- R93, R95, R168: a HALT, and a LINE RESET that is obeyed as one, keep the discipline. -/
theorem haltTaken_fits {b : Bool} (h : (chainView s).Fits)
    (hb : b = s.su.lineResetPending ∨ s.su.station = .running) :
    (chainView (haltTaken (s.withSu { s.su with lineResetPending := b }))).Fits := by
  have view : chainView (s.withSu { s.su with lineResetPending := b }) = { chainView s with resetPending := b } := rfl
  have idle (hx : s.px.state = .idle ∨ s.px.state = .stopped) : s.withSu { s.su with lineResetPending := b } = s := by
    have hn : s.su.station ≠ .running := by
      intro hr
      have := h.station.running_iff.mp hr
      rcases hx with hx | hx
      · exact this.1 hx
      · exact this.2 hx
    rw [hb.resolve_right hn]
    rfl
  have closes (hp : (chainView s).head = .parked) :
      (chainView (closeStopping ⟨.halted, none⟩ (s.withSu { s.su with lineResetPending := b }))).Fits := by
    rw [chainView_closeStopping, view]
    refine Closable.endedWith_fits (c := { chainView s with resetPending := b }) ⟨.inl hp, ?_, h.joints⟩ _
    by_contra hr
    have := (h.pendingRetract (by simpa using hr)).1
    simp [hp] at this
  have waiting (e : Decision) (w : (chainView s).Waits e) (hn : ¬ NormalEnd e) :
      ({ chainView s with resetPending := b } : ChainView).Fits :=
    Waits.fits (e := e) ⟨w.executor, w.decided, w.running, w.settles, w.phaseClosed, w.pendingRetract, w.stopped, fun _ => hn,
      w.joints⟩
  have head := h.head
  unfold haltTaken
  extract_lets e
  split
  · next hx => rw [idle (.inl hx)]; exact h
  · next hx => rw [idle (.inr hx)]; exact h
  · next hx =>
    obtain ⟨d, hd⟩ := h.waits (.inr hx)
    have : d = ⟨.halted, none⟩ := Option.some.inj (hd.decided.symm.trans (h.decided.2 hx))
    exact waiting d hd (by simp [this, NormalEnd])
  · next hx =>
    simp only [HeadOk, show (chainView s).executor = .waitSlot from hx] at head
    exact closes head
  · next hx =>
    simp only [HeadOk, show (chainView s).executor = .fetching from hx] at head
    split
    · next hr =>
      simp only [show (chainView s).role = .fresh from hr] at head
      exact closes head
    · next hr =>
      simp only [show (chainView s).role = .continuation from hr] at head
      exact closeIfRest_fits (haltingRetract_waits h (.inl hx) (.inl (by rw [head]; rfl)))
  · next hx =>
    simp only [HeadOk, show (chainView s).executor = .active from hx] at head
    refine closeIfRest_fits (haltingRetract_waits h (.inr hx) ?_)
    split at head
    · exact .inl head
    · exact .inr head
  · next hx =>
    obtain ⟨d, hd⟩ := h.waits (.inl hx)
    split
    · next hs =>
      obtain ⟨d', hd', hn⟩ := (stoppingDecided_iff _).mp hs
      cases hd.decided.symm.trans hd'
      exact waiting d hd hn
    · rw [chainView_setExecutor, chainView_decideEnd, view]
      exact Waits.fits (e := e) ⟨.inr ⟨rfl, rfl⟩, rfl, hd.running, hd.settles, hd.phaseClosed, hd.pendingRetract, hd.stopped,
        fun _ => by simp [e, NormalEnd], hd.joints⟩

theorem lineResetTaken_fits (h : (chainView s).Fits) : (chainView (lineResetTaken s)).Fits := by
  unfold lineResetTaken
  split
  · next hr =>
    split
    · exact h
    · exact haltTaken_fits h (.inr hr)
  · next hn =>
    split
    · next hr =>
      simp only [retractFromHalted, Bool.and_eq_true, beq_iff_eq, bne_iff_ne] at hr
      exact ⟨h.station, h.head, h.record, h.travel, h.target, h.pendingRetract, h.stopped, h.decided,
        fun _ => .inr ⟨hn, hr.1⟩, h.unconfigured, h.joints⟩
    · next hr =>
      rw [chainView_lineResetEffect]
      refine resetTo_fits ?_
      have rest : (chainView s).executor = .idle ∨ (chainView s).executor = .stopped := by
        have := h.station
        by_contra hx
        simp only [not_or] at hx
        exact hn (h.station.running_iff.mpr hx)
      have head : (chainView s).head.working = false := by
        have head := h.head
        rcases rest with hx | hx <;> simpa only [HeadOk, hx] using head
      simp only [retractFromHalted, Bool.and_eq_true, beq_iff_eq, bne_iff_ne, not_and, not_not] at hr
      have retracts : s.hs.state ≠ .retracting := fun hh => hn (hr hh)
      simp only [chainView] at head ⊢
      cases hh : s.hs.state <;> simp_all [HeadState.working]

/-! ### The travel computation -/

/-- R34 to R37: a computation that reports finds v at 0 and the travel phase open, and the reports go with the record's
kind. -/
theorem travelReport_ne_none {p v : Nat} (h : (travelReport s p v).1 ≠ .none) :
    v = 0 ∧ s.tg.phaseOpen = true ∧ ∃ m, s.tg.target = some m
      ∧ ((travelReport s p v).1 = .stall → m.kind ≠ .weld)
      ∧ ((travelReport s p v).1 = .holdExpired ∨ (travelReport s p v).1 = .holdStop → m.kind = .weld) := by
  unfold travelReport at h ⊢
  split at h
  · exact absurd rfl h
  · next hv =>
    rw [if_neg hv]
    split at h
    · next m ho hm =>
      refine ⟨by omega, ho, m, hm, ?_⟩
      clear h
      by_cases hp : p = m.endPos
      · simp [hp]
      · by_cases hk : m.kind = .weld
        · by_cases hh : atVoidHold s.ju p = true
          · simp [hp, hk, hh]
          · simp [hp, hk, hh]
            split <;> simp
        · simp [hp, hk]
          split <;> simp
    · exact absurd rfl h

theorem chainView_applyTravel (r : TravelResult) (s : State) : chainView (applyTravel r s) =
    { chainView s with phaseOpen := s.tg.phaseOpen && decide (r.report = .none) } := by
  rw [applyTravel, chainView_raiseIf]
  rfl

/-- R33: a computation keeps the discipline before its report is acted on. -/
theorem applyTravel_fits (r : TravelResult) (h : (chainView s).Fits) : (chainView (applyTravel r s)).Fits := by
  rw [chainView_applyTravel]
  refine ⟨h.station, h.head, h.record, fun ho => h.travel ?_, h.target, h.pendingRetract, h.stopped, h.decided,
    h.resetPending, h.unconfigured, h.joints⟩
  exact (Bool.and_eq_true _ _ ▸ ho).1

/-- R84, R85: a computation's report reaches an ACTIVE record whose travel phase it has closed: what it finds. -/
structure Reports (r : TravelReport) (s : State) : Prop where
  fits : (chainView s).Fits
  active : s.px.state = .active
  closed : s.tg.phaseOpen = false
  target : ∃ m, s.tg.target = some m ∧ (m.kind = .weld → s.hs.state = .stirring) ∧ (r = .stall → m.kind ≠ .weld)
    ∧ (r = .holdExpired ∨ r = .holdStop → m.kind = .weld)

theorem Reports.running {r : TravelReport} (h : Reports r s) : (chainView s).station = .running := by
  simp [h.fits.station.running_iff, show (chainView s).executor = .active from h.active]

/-- The record in hand and its target have one kind. -/
theorem Reports.record {r : TravelReport} (h : Reports r s) : ∃ m k, s.tg.target = some m ∧ s.px.record = some k
    ∧ k.travelKind = some m.kind ∧ (k.kind = some .weld ↔ m.kind = .weld)
    ∧ (m.kind = .weld → ∃ w, s.hs.weld = some w ∧ w.cont = k.cont) := by
  obtain ⟨m, hm, _⟩ := h.target
  have record := h.fits.record
  simp only [RecordOk, show (chainView s).executor = .active from h.active] at record
  obtain ⟨k, hk, ht, hw⟩ := record
  have kind : k.travelKind = some m.kind := by
    rw [← ht, show (chainView s).target = some m from hm]
    rfl
  have iff : k.kind = some .weld ↔ m.kind = .weld := by
    constructor
    · intro hk'
      rw [travelKind_weld hk'] at kind
      exact (Option.some.inj kind).symm
    · intro hm'
      rw [hm'] at kind
      unfold PassRecord.travelKind at kind
      split at kind <;> simp_all
  exact ⟨m, k, hm, hk, kind, iff, fun hm' => hw (iff.mpr hm')⟩

/-- R85: a record that ends short waits for rest. -/
theorem shortEnd_fits {e : Decision} {r : TravelReport} (h : Reports r s) (he : e.kind ≠ .complete)
    (hu : chainView t = chainView s ∧ (chainView s).head = .parked ∨ chainView t = { chainView s with
      head := .retracting } ∧ (chainView s).head = .stirring) : (chainView (executorShortEnd e t)).Fits := by
  have noReset := h.fits.noReset_of_active h.active
  have noRetract := h.fits.noRetract_of_active h.active
  have joints := h.fits.joints
  have active : t.px.state = .active := by
    rcases hu with ⟨hu, _⟩ | ⟨hu, _⟩ <;> exact (congrArg ChainView.executor hu).trans h.active
  unfold executorShortEnd
  rw [if_pos active]
  have normal : e.kind = .complete → ∀ r, t.px.record = some r → r.continues = false := fun hk => absurd hk he
  rcases hu with ⟨hu, hp⟩ | ⟨hu, hp⟩
  · refine awaitEnd_fits ?_ normal ?_ ?_ ?_ ?_ ?_ ?_ <;> rw [hu]
    · exact h.running
    · exact .inl hp
    · exact h.closed
    · simp [noRetract]
    · exact fun _ => hp
    · exact noReset
    · exact joints
  · refine awaitEnd_fits ?_ normal ?_ ?_ ?_ ?_ ?_ ?_ <;> rw [hu]
    · exact h.running
    · exact .inr (.inl rfl)
    · exact h.closed
    · simp [noRetract]
    · intro hs
      have := h.fits.stopped hs
      simp [hp] at this
    · exact noReset
    · exact joints

theorem chainView_enterRetracting_of_closed (ho : s.tg.phaseOpen = false) :
    chainView (enterRetracting s) = { chainView s with head := .retracting } := by
  rw [chainView_enterRetracting, ho]
  simp only [chainView, ho, Bool.false_and]

/-- R110, R111: a report puts a STIRRING head in RETRACTING. -/
theorem chainView_retractOnReport (hs : s.hs.state = .stirring) (ho : s.tg.phaseOpen = false) :
    chainView (retractOnReport s) = { chainView s with head := .retracting } := by
  rw [retractOnReport, if_pos hs, chainView_enterRetracting_of_closed ho]

/-- R84: a path end. -/
theorem pathEnd_fits (h : Reports .pathEnd s) : (chainView (travelReported .pathEnd s)).Fits := by
  obtain ⟨m, k, hm, hk, kind, iff, hw⟩ := h.record
  have stirs : m.kind = .weld → s.hs.state = .stirring := by
    obtain ⟨m', hm', hs, _⟩ := h.target
    cases hm.symm.trans hm'
    exact hs
  have noReset := h.fits.noReset_of_active h.active
  have noRetract := h.fits.noRetract_of_active h.active
  have joints := h.fits.joints
  have active := h.active
  have running := h.running
  -- the record waits for rest, in a state that differs from `s` by the head alone
  have waits (u : State) (x : HeadState) (hu : chainView u = { chainView s with head := x })
      (hx : x = .parked ∨ x = .retracting ∧ s.hs.state = .stirring) (hp : x = .parked → s.hs.state = .parked)
      (hc : k.continues = false) : (chainView (executorPathEnd u)).Fits := by
    have record : u.px.record = some k := (congrArg ChainView.record hu).trans hk
    unfold executorPathEnd
    rw [if_pos (show u.px.state = .active from (congrArg ChainView.executor hu).trans active)]
    extract_lets v
    have none : v.px.record.any PassRecord.continues = false := by
      rw [show v.px.record = some k from record]
      simpa using hc
    rw [none, if_neg (by simp)]
    refine closeIfRest_fits (e := ⟨.complete, Option.none⟩) ?_
    rw [chainView_setExecutor, chainView_decideEnd, hu]
    refine ⟨.inl ⟨rfl, fun _ r hr => ?_⟩, rfl, running, ?_, h.closed, by simp [noRetract], fun hs => ?_,
        by simp [noReset], joints⟩
    · cases hk.symm.trans hr
      exact hc
    · rcases hx with rfl | ⟨rfl, _⟩
      · exact .inl rfl
      · exact .inr (.inl rfl)
    · rcases hx with rfl | ⟨rfl, hh⟩
      · rfl
      · have := h.fits.stopped hs
        simp [chainView, hh] at this
  unfold travelReported
  simp only [hm, Option.any_some, beq_iff_eq]
  split
  · next hmk =>
    obtain ⟨w, hw', hcont⟩ := hw hmk
    have stirring := stirs hmk
    have cont : k.continues = w.cont := by simp [PassRecord.continues, iff.mpr hmk, hcont]
    unfold headPathEnd
    simp only [hw']
    split
    · next hc =>
      unfold executorPathEnd
      rw [if_pos active]
      extract_lets v
      have next : v.px.record.any PassRecord.continues = true := by
        rw [show v.px.record = some k from hk]
        simp [cont, hc]
      rw [if_pos next]
      have continues : nextFetch .complete v.px.record v.px.index = some (.continuation, v.px.index + 1) := by
        rw [show v.px.record = some k from hk]
        simp [nextFetch, cont, hc]
      refine closeRecord_fits (e := ⟨.complete, none⟩) rfl (fun role i hn => ?_) (fun hn => ?_)
      · cases continues.symm.trans hn
        refine ⟨running, noReset, noRetract, rfl, rfl, by simp, fun _ => ⟨stirring, ?_, ?_⟩, joints⟩
        · exact Option.isSome_iff_exists.mpr ⟨w, hw'⟩
        · by_contra hs
          have := h.fits.stopped (eq_true_of_ne_false hs)
          simp [chainView, stirring] at this
      · cases continues.symm.trans hn
    · next hc =>
      exact waits _ .retracting (chainView_retractOnReport stirring h.closed) (.inr ⟨rfl, stirring⟩) (by simp)
        (by simpa [cont] using hc)
  · next hmk =>
    have hnw : k.kind ≠ some .weld := fun hh => hmk (iff.mp hh)
    have parked : s.hs.state = .parked := by
      have head := h.fits.head
      simp only [HeadOk, show (chainView s).executor = .active from active,
        show (chainView s).record = some k from hk, Option.bind_some] at head
      rwa [if_neg hnw] at head
    exact waits s .parked (by rw [← parked]; rfl) (.inl rfl) (fun _ => parked) (by simp [PassRecord.continues, hnw])

/-- R84, R85, R110, R111. -/
theorem travelReported_fits {r : TravelReport} (h : r ≠ .none → Reports r s) (hf : (chainView s).Fits) :
    (chainView (travelReported r s)).Fits := by
  have stirs (h : Reports r s) (hr : r = .holdExpired ∨ r = .holdStop) :
      chainView (retractOnReport s) = { chainView s with head := .retracting } ∧ (chainView s).head = .stirring := by
    obtain ⟨m, hm, hs, _, hk⟩ := h.target
    have stirring := hs (hk hr)
    exact ⟨chainView_retractOnReport stirring h.closed, stirring⟩
  cases r with
  | none => exact hf
  | pathEnd => exact pathEnd_fits (h (by simp))
  | stall =>
    have h := h (by simp)
    refine shortEnd_fits h (by simp) (.inl ⟨rfl, ?_⟩)
    obtain ⟨m, k, hm, hk, _, iff, _⟩ := h.record
    obtain ⟨m', hm', _, hs, _⟩ := h.target
    cases hm.symm.trans hm'
    have head := h.fits.head
    simp only [HeadOk, show (chainView s).executor = .active from h.active,
      show (chainView s).record = some k from hk, Option.bind_some] at head
    rwa [if_neg (fun hh => hs rfl (iff.mp hh))] at head
  | holdExpired => exact shortEnd_fits (h (by simp)) (by simp) (.inr (stirs (h (by simp)) (.inl rfl)))
  | holdStop => exact shortEnd_fits (h (by simp)) (by simp) (.inr (stirs (h (by simp)) (.inr rfl)))

/-- R24. -/
theorem travelEvent_fits (h : (chainView s).Fits) : (chainView (travelEvent s)).Fits := by
  unfold travelEvent
  split
  · exact h
  · next r hr =>
    have fits := applyTravel_fits r h
    refine travelReported_fits (fun hn => ?_) fits
    have made : ∃ p, r = computeTravel s p := by
      unfold travelDue at hr
      split at hr
      · cases hr
      · split at hr
        · exact ⟨_, (Option.some.inj hr).symm⟩
        · cases hr
    obtain ⟨p, rfl⟩ := made
    obtain ⟨_, hopen, m, hm, hstall, hweld⟩ := travelReport_ne_none hn
    obtain ⟨hactive, m', hm', hstirs⟩ := h.travel hopen
    cases hm.symm.trans hm'
    have view := chainView_applyTravel (computeTravel s p) s
    refine ⟨fits, (congrArg ChainView.executor view).trans hactive, ?_, m, (congrArg ChainView.target view).trans hm, ?_,
      hstall, hweld⟩
    · refine (congrArg ChainView.phaseOpen view).trans ?_
      simp [hn]
    · intro hk
      exact (congrArg ChainView.head view).trans (hstirs hk)

end Sys2Proof.Machine

namespace Sys2Proof.Machine

open ChainView

variable {s t : State}

/-! ### The head's work at an expiry -/

/-- A fresh weld's phase goes on: the head moves from one state of work to another (R103 to R105). -/
theorem ChainView.Fits.working_on {c : ChainView} (h : c.Fits) (hw : c.head.working = true) (hs : c.head ≠ .stirring)
    {x : HeadState} (hx : x.working = true) {b : Bool} (hb : b = true → x = .stirring ∧ c.target ≠ none ∨ c.phaseOpen = true) :
    ({ c with head := x, phaseOpen := b } : ChainView).Fits := by
  have head := h.head
  have unparked : c.head ≠ .parked := by
    intro hp
    rw [hp] at hw
    cases hw
  have active : c.executor = .active := by
    cases hc : c.executor <;> simp only [HeadOk, hc] at head
    case active => rfl
    case fetching => split at head <;> [exact absurd head unparked; exact absurd head hs]
    case waitSlot => exact absurd head unparked
    case idle | stopped => rw [head] at hw; cases hw
    all_goals
      rcases head with hh | hh | ⟨hh, _⟩
      · exact absurd hh unparked
      · rw [hh] at hw
        cases hw
      · exact absurd hh hs
  have noRetract := h.noRetract_of_active active
  have noReset := h.noReset_of_active active
  have running : c.station = .running := by simp [h.station.running_iff, active]
  have weld : c.record.bind PassRecord.kind = some .weld := by
    by_contra hk
    simp only [HeadOk, active, if_neg hk] at head
    exact unparked head
  refine ⟨h.station, ?_, ?_, fun ho => ⟨active, ?_⟩, h.target, by simp [noRetract], fun hs => ?_, h.decided, by simp [noReset],
    by simp [running], h.joints⟩
  · simp only [HeadOk, active, if_pos weld]
    exact hx
  · have record := h.record
    simp only [RecordOk, active] at record ⊢
    exact record
  · rcases hb ho with ⟨rfl, ht⟩ | hp
    · obtain ⟨m, hm⟩ := Option.ne_none_iff_exists'.mp ht
      exact ⟨m, hm, fun _ => rfl⟩
    · obtain ⟨_, m, hm, hk⟩ := h.travel hp
      have record := h.record
      simp only [RecordOk, active] at record
      obtain ⟨r, hr, hrt, _⟩ := record
      rw [hr, Option.bind_some] at weld
      rw [travelKind_weld weld, hm] at hrt
      exact absurd (hk (Option.some.inj hrt)) hs
  · rcases h.stopped hs with hp | hp
    · exact absurd hp unparked
    · rw [hp] at hw
      cases hw

/-- R104, R105: the plunge completes. -/
theorem plungeDone_fits (w : WeldParams) (h : (chainView s).Fits) (hp : s.hs.state = .plunging) :
    (chainView (plungeDone w s)).Fits := by
  have dwells : (chainView (enterHead .dwelling s)).Fits := by
    rw [chainView_enterHead]
    exact h.working_on (b := s.tg.phaseOpen) (by rw [show (chainView s).head = _ from hp]; rfl)
      (by simp [show (chainView s).head = _ from hp]) rfl .inr
  unfold plungeDone
  extract_lets u
  split
  · rw [chainView_enterStirring]
    have dwelling : (chainView u).head = .dwelling := congrArg ChainView.head (chainView_enterHead .dwelling s)
    refine dwells.working_on (by rw [dwelling]; rfl) (by simp) rfl (fun ht => .inl ⟨rfl, ?_⟩)
    exact Option.isSome_iff_ne_none.mp ht
  · exact dwells

theorem endDwell_fits (h : (chainView s).Fits) : (chainView (endDwell s)).Fits := by
  unfold endDwell
  split
  · next w hw =>
    have dwelling : (chainView s).head = .dwelling := by
      unfold dwellDone at hw
      split at hw
      · assumption
      · cases hw
    rw [chainView_enterStirring]
    refine h.working_on (by rw [dwelling]; rfl) (by simp [dwelling]) rfl (fun ht => .inl ⟨rfl, ?_⟩)
    exact Option.isSome_iff_ne_none.mp ht
  · exact h

theorem phaseCheck_fits (h : (chainView s).Fits) : (chainView (phaseCheck s)).Fits := by
  unfold phaseCheck
  split
  · exact headFault_fits _ h.stoppable
  · split
    · exact retractTimesOut_fits h
    · exact endDwell_fits h

theorem forceCheck_fits (h : (chainView s).Fits) : (chainView (forceCheck s)).Fits := by
  unfold forceCheck
  split
  · exact headFault_fits _ h.stoppable
  · exact h

/-- R114: a pending retract begins. -/
theorem startPendingRetract_fits (h : (chainView s).Fits) : (chainView (startPendingRetract s)).Fits := by
  unfold startPendingRetract
  split
  · next hd =>
    simp only [pendingRetractDue, Bool.and_eq_true, beq_iff_eq] at hd
    obtain ⟨⟨hs, hp⟩, _⟩ := hd
    obtain ⟨e, he⟩ := h.waits (h.pendingRetract hp).2.symm
    rw [chainView_enterRetracting]
    refine Waits.fits (e := e) ⟨he.executor, he.decided, he.running, .inr (.inl rfl), by simp [hs], fun _ => .inr rfl,
      fun hs' => ?_, he.resetPending, he.joints⟩
    have := he.stopped hs'
    simp [chainView, hs] at this
  · exact h

theorem chainView_headCounts (s : State) : chainView (headCounts s) = chainView s := rfl

theorem chainView_forceStep (w : WeldParams) (s : State) : chainView (forceStep w s) = chainView s := by
  unfold forceStep
  extract_lets sum trim
  rw [chainView_raiseIf]
  rfl

theorem chainView_headRamps (s : State) : chainView (headRamps s) = chainView s := by
  unfold headRamps
  split
  · rfl
  · split
    · exact chainView_forceStep _ s
    · rfl
  · rfl
  · rfl

/-- R121. -/
theorem headExpiry_fits (b : Bool) (h : (chainView s).Fits) : (chainView (headExpiry b s)).Fits := by
  unfold headExpiry
  extract_lets u v
  have ramped : (chainView u).Fits := by
    rw [show chainView u = chainView s from (chainView_headRamps _).trans (chainView_headCounts s)]
    exact h
  refine startPendingRetract_fits ?_
  unfold v
  split
  · exact forceCheck_fits (phaseCheck_fits ramped)
  · exact phaseCheck_fits (forceCheck_fits ramped)

/-! ### A chain without a LINE RESET pending does not end UNCONFIGURED -/

/-- The station is configured, and no LINE RESET is pending. -/
def ChainView.Live (c : ChainView) : Prop := c.station ≠ .unconfigured ∧ c.resetPending = false

theorem closeStopping_live {e : Decision} (h : (chainView s).Live) : (chainView (closeStopping e s)).Live := by
  rw [chainView_closeStopping, endedWith, if_neg (by simp [h.2])]
  refine ⟨?_, h.2⟩
  dsimp only
  split <;> simp

theorem chainView_normalRetract_live (h : (chainView s).Live) : (chainView (normalRetract s)).Live := by
  unfold normalRetract
  split
  · exact h
  · split
    · rw [chainView_enterRetracting]
      exact h
    · exact h

theorem programCheck_live {d : Detail} (h : (chainView s).Live) : (chainView (programCheck d s)).Live := by
  unfold programCheck
  extract_lets e x u v w
  have hu : (chainView u).Live := by
    rw [show chainView u = chainView s from chainView_raise .programCheck _]
    exact h
  split
  · exact closeStopping_live hu
  · have hw : (chainView w).Live := by
      refine chainView_normalRetract_live ?_
      rw [chainView_setExecutor]
      exact hu
    split
    · exact closeStopping_live hw
    · exact hw

theorem beginFetch_live {role : Role} {i : Nat} (h : (chainView s).Live) : (chainView (beginFetch role i s)).Live := by
  unfold beginFetch
  extract_lets x u
  have hu : (chainView u).Live := by
    simp only [u, chainView_setExecutor]
    exact h
  split
  · exact programCheck_live hu
  · rw [chainView_takeIndex]
    exact hu

theorem closeRecord_live (h : (chainView s).Live) : (chainView (closeRecord s)).Live := by
  unfold closeRecord
  split
  · exact h
  · next e _ =>
    split
    · exact closeStopping_live h
    · refine beginFetch_live ?_
      rw [chainView_withPx, chainView_withdrawTarget, chainView_closeJoints]
      exact h

theorem closeIfRest_live (h : (chainView s).Live) : (chainView (closeIfRest s)).Live := by
  unfold closeIfRest
  split
  · exact closeRecord_live h
  · exact h

theorem faultRetract_live (h : (chainView s).Live) : (chainView (faultRetract s)).Live := by
  rw [chainView_faultRetract]
  split <;> exact h

theorem stoppingCause_live {e : Decision} {d : Detail} (h : (chainView s).Live) :
    (chainView (stoppingCause e d s)).Live := by
  have retracted : (chainView (faultRetract (withdrawTarget s))).Live := faultRetract_live h
  have awaited : (chainView (awaitEnd e (faultRetract (withdrawTarget s)))).Live := by
    refine closeIfRest_live ?_
    rw [chainView_setExecutor]
    exact retracted
  unfold stoppingCause
  split
  · exact h
  · exact h
  · exact closeStopping_live h
  · split
    · exact closeStopping_live h
    · exact awaited
  · exact awaited
  · extract_lets u
    split
    · rw [chainView_fileSecondary]
      exact retracted
    · exact retracted
  · rw [chainView_fileSecondary]
    exact retracted

/-- R90, R168: with a LINE RESET pending a cause is filed, and the station stays RUNNING. -/
theorem stoppingCause_station_of_pending {e : Decision} {d : Detail}
    (hx : s.px.state = .awaitHeadEnd ∨ s.px.state = .halting) :
    (chainView (stoppingCause e d s)).station = s.su.station := by
  have retracted : (chainView (faultRetract (withdrawTarget s))).station = s.su.station := by
    rw [chainView_faultRetract]
    split <;> rfl
  rcases hx with hx | hx <;> simp only [stoppingCause, hx]
  · split
    · rw [chainView_fileSecondary]
      exact retracted
    · exact retracted
  · rw [chainView_fileSecondary]
    exact retracted

/-- A fault leaves a RUNNING station in order and configured. -/
theorem faultCause_configured (d : Detail) (h : (chainView s).Stoppable) (hc : s.su.station ≠ .unconfigured) :
    (chainView (faultCause d s)).station ≠ .unconfigured := by
  have raised : chainView (raise .fault s) = chainView s := chainView_raise .fault s
  by_cases hp : s.su.lineResetPending = true
  · by_cases hx : s.px.state = .idle ∨ s.px.state = .stopped
    · have same : faultCause d s = raise .fault s := by
        have px : (raise .fault s).px.state = s.px.state := congrArg ChainView.executor raised
        rcases hx with hx | hx <;> simp [faultCause, stoppingCause, px, hx]
      rw [same, raised]
      exact hc
    · simp only [not_or] at hx
      have waiting := h.noReset (h.running hx) hp
      rw [faultCause, stoppingCause_station_of_pending]
      · rw [show (raise .fault s).su.station = s.su.station from congrArg ChainView.station raised]
        exact hc
      · rw [show (raise .fault s).px.state = s.px.state from congrArg ChainView.executor raised]
        exact waiting
  · refine (stoppingCause_live (s := raise .fault s) ?_).1
    rw [raised]
    exact ⟨hc, eq_false_of_ne_true hp⟩

/-! ### Feedback -/

/-- R40, R176, R177: a report is marked, in a station that is configured. -/
theorem ChainView.Fits.mark {c : ChainView} (h : c.Fits) (hc : c.station ≠ .unconfigured) (b : Bool) :
    ({ c with reported := b } : ChainView).Fits :=
  ⟨h.station, h.head, h.record, h.travel, h.target, h.pendingRetract, h.stopped, h.decided, h.resetPending,
    fun hu => absurd hu hc, h.joints⟩

theorem chainView_handOn (m : Feedback) (s : State) : chainView (handOn m s) = chainView s := by
  unfold handOn takeForce followZ followPosition
  split <;> split <;> split <;> rfl

/-- The station is in order and configured. -/
def Sound (s : State) : Prop := (chainView s).Fits ∧ s.su.station ≠ .unconfigured

theorem Sound.faultCause (h : Sound s) (d : Detail) : Sound (faultCause d s) :=
  ⟨faultCause_fits d h.1.stoppable, faultCause_configured d h.1.stoppable h.2⟩

theorem Sound.headFault (h : Sound s) (d : Detail) : Sound (headFault d s) := by
  have retracted := faultRetract_stoppable h.1.stoppable
  refine ⟨faultCause_fits d retracted, faultCause_configured d retracted ?_⟩
  have := congrArg ChainView.station (chainView_faultRetract s)
  rw [show (faultRetract s).su.station = _ from this]
  split <;> exact h.2

theorem Sound.driveFault (h : Sound s) (found : State) : Sound (driveFault found s) := by
  unfold Machine.driveFault
  split
  · refine Sound.faultCause ?_ _
    exact ⟨h.1.mark h.2 _, h.2⟩
  · exact h

theorem Sound.feedbackFaults (h : Sound s) (m : Feedback) (found : State) : Sound (feedbackFaults m found s) := by
  have position : Sound (positionFault m found s) := by
    unfold positionFault
    split
    · exact h.driveFault found
    · split
      · refine Sound.faultCause ?_ _
        exact ⟨h.1.mark h.2 _, h.2⟩
      · exact h
  have overload : Sound (overloadFault m found (positionFault m found s)) := by
    unfold overloadFault
    split
    · exact position.headFault _
    · exact position
  unfold Machine.feedbackFaults codeFault
  split
  · exact overload
  · exact overload.driveFault found

/-- Outside RUNNING, or with the head PARKED, RETRACTING or HALTED in UNCONFIGURED, a message has no faults. -/
theorem feedbackFaults_of_unconfigured {m : Feedback} {found : State} (hf : (chainView found).Fits)
    (hu : found.su.station = .unconfigured) (s : State) : feedbackFaults m found s = s := by
  have head := (hf.unconfigured hu).1
  have pressing : found.hs.state.pressing = false := by
    rcases head with hh | hh <;> rw [show found.hs.state = _ from hh] <;> rfl
  simp [feedbackFaults, positionFault, driveFault, followingLost, overloadFault, overloads, codeFault, hu, pressing]

/-- R103, R104, R112: a message's completion keeps the discipline. -/
theorem feedbackCompletes_fits (m : Feedback) (found : State) (h : (chainView s).Fits) :
    (chainView (feedbackCompletes m found s)).Fits := by
  unfold feedbackCompletes
  split
  · exact h
  · split
    · next he =>
      simp only [spinUpEnds, Bool.and_eq_true, beq_iff_eq] at he
      have spinning : (chainView s).head = .spinningUp := he.1
      rw [chainView_enterHead]
      exact h.working_on (b := s.tg.phaseOpen) (by rw [spinning]; rfl) (by simp [spinning]) rfl .inr
    · split
      · next he =>
        simp only [retractEnds, Bool.and_eq_true, beq_iff_eq] at he
        exact headEnd_fits h he.1.1
      · split
        · split
          · next he =>
            simp only [plungeEnds, Bool.and_eq_true, beq_iff_eq] at he
            exact plungeDone_fits _ h he.1.1
          · exact h
        · exact h

theorem feedbackCompletes_live (m : Feedback) (found : State) (h : (chainView s).Live) :
    (chainView (feedbackCompletes m found s)).Live := by
  unfold feedbackCompletes
  split
  · exact h
  · split
    · rw [chainView_enterHead]
      exact h
    · split
      · have parked : (chainView (enterParked s)).Live := by
          rw [chainView_enterParked]
          exact h
        unfold headEnd
        split
        · exact closeIfRest_live parked
        · rw [if_neg (by
            rw [show (enterParked s).su.lineResetPending = false from parked.2]
            simp)]
          split
          · rw [chainView_setStation, chainView_setExecutor]
            exact ⟨by simp, parked.2⟩
          · exact parked
      · split
        · split
          · unfold plungeDone
            extract_lets u
            have hu : (chainView u).Live := by
              rw [chainView_enterHead]
              exact h
            split
            · rw [chainView_enterStirring]
              exact hu
            · exact hu
          · exact h
        · exact h

/-- R174. -/
theorem takeFeedback_fits (b : Bool) (h : (chainView s).Fits) : (chainView (takeFeedback b s)).Fits := by
  unfold takeFeedback
  split
  · exact h
  · next m _ =>
    have handed : (chainView (handOn m s)).Fits := by rwa [chainView_handOn]
    by_cases hu : s.su.station = .unconfigured
    · simp only [feedbackFaults_of_unconfigured h hu]
      split <;> exact feedbackCompletes_fits m s handed
    · have station : (handOn m s).su.station = s.su.station := congrArg ChainView.station (chainView_handOn m s)
      split
      · next hc =>
        simp only [completesFirst, Bool.and_eq_true, Bool.not_eq_true'] at hc
        have live : (chainView (handOn m s)).Live := by
          rw [chainView_handOn]
          exact ⟨hu, hc.2⟩
        exact (Sound.feedbackFaults ⟨feedbackCompletes_fits m s handed, (feedbackCompletes_live m s live).1⟩ m s).1
      · exact feedbackCompletes_fits m s (Sound.feedbackFaults ⟨handed, station ▸ hu⟩ m s).1

/-! ### The interval clock -/

theorem chainView_beaconDue (s : State) : chainView (beaconDue s) = chainView s :=
  chainView_of_keeps (beaconDue_keeps s) (by rfl)

theorem chainView_periodWork (s : State) : chainView (periodWork s) = chainView s := by
  unfold periodWork
  split
  · rw [chainView_beaconDue]
    rfl
  · split <;> rfl

theorem chainView_holdOffWork (s : State) : chainView (holdOffWork s) = chainView s := by
  unfold holdOffWork
  split
  · extract_lets x u
    split
    · rw [chainView_beaconDue]
      rfl
    · rfl
  · rfl

theorem chainView_lineWork (s : State) : chainView (lineWork s) = chainView s :=
  (chainView_holdOffWork _).trans (chainView_periodWork s)

/-- R176. -/
theorem portWork_fits (h : (chainView s).Fits) : (chainView (portWork s)).Fits := by
  unfold portWork
  split
  · next hd =>
    simp only [feedbackLostDue, Bool.and_eq_true, beq_iff_eq] at hd
    refine faultCause_fits _ (Fits.stoppable ?_)
    exact h.mark (c := chainView s) (by simp [chainView, hd.1.1]) _
  · exact h

/-- R160. -/
theorem orderedWork_fits (o : ExpiryOrder) (h : (chainView s).Fits) : (chainView (orderedWork o s)).Fits := by
  have line (u : State) (hu : (chainView u).Fits) : (chainView (lineWork u)).Fits := by rwa [chainView_lineWork]
  cases o with
  | portExecutorLine => exact line _ (executorTurn_fits (portWork_fits h))
  | portLineExecutor => exact executorTurn_fits (line _ (portWork_fits h))
  | executorPortLine => exact line _ (portWork_fits (executorTurn_fits h))
  | executorLinePort => exact portWork_fits (line _ (executorTurn_fits h))
  | linePortExecutor => exact executorTurn_fits (portWork_fits (line _ h))
  | lineExecutorPort => exact portWork_fits (executorTurn_fits (line _ h))

end Sys2Proof.Machine

namespace Sys2Proof.Machine

open ChainView

variable {s t : State}

/-! ### Joints and neighbours -/

theorem chainView_jointExpiry (s : State) : chainView (jointExpiry s) = chainView s := by
  unfold jointExpiry
  extract_lets x u v y
  have aged : chainView u = chainView s := by
    simp only [u, chainView_setJoints]
    have : (s.ju.openList.map ageJoint).map (fun e => e.id) = s.ju.ids := by
      rw [List.map_map]
      refine List.map_congr_left (fun e _ => ?_)
      simp only [Function.comp_apply, ageJoint]
      split <;> rfl
    rw [show JointUnit.ids { s.ju with openList := s.ju.openList.map ageJoint } = s.ju.ids from this]
    rfl
  have tested : chainView v = chainView s := by
    unfold v
    split
    · next hs => rw [chainView_releaseTest u hs, aged]
    · exact aged
  rw [chainView_setJoints]
  exact tested

/-- A record held in WAIT_SLOT may start. -/
theorem startHeld_fits (h : (chainView s).Fits) : (chainView (startHeld s)).Fits := by
  unfold startHeld
  split
  · next r hx hr =>
    have hx' : (chainView s).executor = .waitSlot := hx
    have head := h.head
    have record := h.record
    simp only [HeadOk, RecordOk, hx'] at head record
    obtain ⟨r', hr', hk, hf, _, hl⟩ := record
    cases hr.symm.trans hr'
    have running : (chainView s).station = .running := by simp [h.station.running_iff, hx']
    have hf' : s.px.role = .fresh := hf
    refine startRecord_fits ⟨⟨running, ?_, ?_, ?_, ?_, fun _ => head, ?_, h.joints⟩, hr, ⟨.weld, hk, by simp⟩, ?_,
      fun _ _ _ => hl⟩
    · by_contra hp
      have := h.resetPending (eq_true_of_ne_false hp)
      simp [hx', running] at this
    · by_contra hp
      have := h.pendingRetract (eq_true_of_ne_false hp)
      simp [hx'] at this
    · by_contra ht
      have := h.target ht
      simp [hx'] at this
    · exact h.phaseClosed_of_rest (by simp [hx'])
    · simp [hf']
    · simp [hf']
  · exact h

/-- R129, R132: entries that go leave the discipline. -/
theorem jointsFiled_fits (r : Rank) (c : BeaconContent) (h : (chainView s).Fits) :
    (chainView (jointsFiled r c s)).Fits := by
  unfold jointsFiled
  extract_lets removes u
  have sub : (filingEvaluates r c.openList (removeJoints r c.closedList s.ju)).ids.Sublist s.ju.ids :=
    List.filter_sublist.map _
  have filed : (chainView u).Fits := by
    rw [chainView_setJoints]
    refine ⟨h.station, h.head, ?_, h.travel, h.target, h.pendingRetract, h.stopped, h.decided, h.resetPending,
      h.unconfigured, sub.length_le.trans h.joints.1, sub.nodup h.joints.2⟩
    have record := h.record
    simp only [RecordOk] at record ⊢
    split
    · next hx =>
      simp only [hx] at record
      obtain ⟨k, hk, hw, hf, hne, hl⟩ := record
      exact ⟨k, hk, hw, hf, hne, fun hm => hl (sub.subset hm)⟩
    · next hx =>
      simp only [hx] at record
      exact record
    · next hx =>
      simp only [hx] at record
      exact record
    · next hx =>
      simp only [hx] at record
      exact record
    · trivial
  split
  · exact startHeld_fits filed
  · exact filed

theorem beaconTaken_fits (f : ReceivedFrame) (h : (chainView s).Fits) : (chainView (beaconTaken f s)).Fits := by
  unfold beaconTaken
  extract_lets b r
  split
  · split
    · exact conflictStop_fits _ (by rwa [chainView_raise])
    · unfold neighbourBeacon
      extract_lets u
      have filed : (chainView u).Fits := by
        refine jointsFiled_fits r _ ?_
        rw [show chainView (fileBeacon r b.content s) = chainView s from chainView_raiseIf _ _ _]
        exact h
      split
      · exact checkRankConflict_fits filed
      · exact filed
  · exact h

theorem ageingEvent_fits (h : (chainView s).Fits) : (chainView (ageingEvent s)).Fits := by
  refine checkRankConflict_fits ?_
  rw [show chainView (ageTable s) = chainView s from chainView_raiseIf _ _ _]
  exact h

/-! ### Station commands -/

/-- With no chain, a head that is not RETRACTING is PARKED or HALTED. -/
theorem ChainView.Fits.head_of_rest {c : ChainView} (h : c.Fits) (hn : c.station ≠ .running) (hr : c.head ≠ .retracting) :
    c.head = .parked ∨ c.head = .halted := by
  have rest : c.executor = .idle ∨ c.executor = .stopped := by
    by_contra hx
    simp only [not_or] at hx
    exact hn (h.station.running_iff.mpr hx)
  have head : c.head.working = false := by
    have head := h.head
    rcases rest with hx | hx <;> simpa only [HeadOk, hx] using head
  cases hh : c.head <;> simp_all [HeadState.working]

theorem lineResetTakesEffect_fits (h : (chainView s).Fits)
    (hn : ¬ (s.su.station = .running ∨ retractFromHalted s = true)) : (chainView (lineResetEffect s)).Fits := by
  simp only [not_or, retractFromHalted, Bool.and_eq_true, beq_iff_eq, bne_iff_ne, not_and, not_not] at hn
  rw [chainView_lineResetEffect]
  exact resetTo_fits (h.head_of_rest hn.1 (fun hr => hn.1 (hn.2 hr)))

/-- R159. -/
theorem powerUp_fits (l : PowerUpLines) : (chainView (powerUpState l)).Fits :=
  ⟨rfl, rfl, trivial, by rintro ⟨⟩, fun h => absurd rfl h, by rintro ⟨⟩, fun _ => .inl rfl, ⟨by rintro ⟨⟩, by rintro ⟨⟩⟩,
    by rintro ⟨⟩, fun _ => ⟨.inl rfl, rfl⟩, Nat.zero_le _, List.nodup_nil⟩

/-- R161: a SETUP makes the station IDLE. -/
theorem setupTaken_fits (f : ReceivedFrame) (h : (chainView s).Fits) : (chainView (setupTaken f s)).Fits := by
  unfold setupTaken
  extract_lets c c'
  split
  · rwa [chainView_raise]
  · next hu =>
    split
    · rwa [chainView_raise]
    · have hu' : (chainView s).station = .unconfigured := Decidable.not_not.mp hu
      have view : chainView (installSetup (setupMask f.payload) c' (raiseIf (decide (c' ≠ c)) .paramClamped s))
          = { chainView s with station := .idle } := by
        unfold installSetup
        extract_lets u v w x
        rw [chainView_setStation]
        have : chainView x = chainView s := chainView_raiseIf _ _ s
        rw [this]
      have station := h.station
      rw [hu'] at station
      have executor : (chainView s).executor = .idle := station
      rw [view]
      refine ⟨executor, h.head, h.record, h.travel, h.target, h.pendingRetract, h.stopped, h.decided, fun hp => ?_, by simp,
        h.joints⟩
      rcases h.resetPending hp with ⟨hr, _⟩ | ⟨_, hr⟩
      · rw [hu'] at hr
        cases hr
      · rcases (h.unconfigured hu').1 with hh | hh <;> rw [hh] at hr <;> cases hr

/-- R45, R123, R140, R181: what a JOB CLEAR resets leaves a station with no chain in order. -/
theorem chainView_jobCleared (s : State) : chainView (jobCleared s) = { chainView s with
    ids := [], target := none, phaseOpen := false, weld := none, retractPending := false, reported := false } := by
  obtain ⟨l, he, _⟩ := setJoints_eq {} s
  unfold jobCleared emptyJoints
  rw [he]
  rfl

/-- R166. -/
theorem jobClearTaken_fits (h : (chainView s).Fits) : (chainView (jobClearTaken s)).Fits := by
  unfold jobClearTaken
  split
  · rwa [chainView_raise]
  · next hn =>
    simp only [not_or] at hn
    obtain ⟨idle, noStop⟩ := hn
    have idle' : (chainView s).station ≠ .running := idle
    have rest : (chainView s).executor = .idle ∨ (chainView s).executor = .stopped := by
      by_contra hx
      simp only [not_or] at hx
      exact idle (h.station.running_iff.mpr hx)
    extract_lets u
    have view := chainView_jobCleared s
    have head : ∀ c : ChainView, c.executor = (chainView s).executor → c.head.working = false → c.HeadOk := by
      intro c hc hw
      rcases rest with hr | hr <;> simp only [HeadOk, hc, hr] <;> exact hw
    have working : (chainView s).head.working = false := by
      have head := h.head
      rcases rest with hx | hx <;> simpa only [HeadOk, hx] using head
    have record : ∀ c : ChainView, c.executor = (chainView s).executor → c.RecordOk := by
      intro c hc
      rcases rest with hr | hr <;> simp only [RecordOk, hc, hr]
    have held (hp : (chainView s).resetPending = true) : (chainView s).head = .retracting := by
      rcases h.resetPending hp with ⟨hr, _⟩ | ⟨_, hr⟩
      · exact absurd hr idle
      · exact hr
    have cleared : (chainView u).Fits := by
      rw [view]
      exact ⟨h.station, head _ rfl working, record _ rfl, by simp, by simp, by simp, h.stopped, h.decided, h.resetPending,
        fun hu => ⟨(h.unconfigured hu).1, rfl⟩, Nat.zero_le _, List.nodup_nil⟩
    have station : u.su.station = s.su.station := congrArg ChainView.station view
    have executor : u.px.state = s.px.state := congrArg ChainView.executor view
    have headSame : u.hs.state = s.hs.state := congrArg ChainView.head view
    split
    · exact cleared
    · next hu =>
      split
      · next hh =>
        have hold : (chainView s).resetPending = false := by
          by_contra hp
          have := held (eq_true_of_ne_false hp)
          rw [headSame] at hh
          rw [show (chainView s).head = .halted from hh] at this
          cases this
        have begun : chainView (beginRetractFromHalted u) = { chainView u with head := .retracting } := by
          unfold beginRetractFromHalted
          extract_lets v
          rw [show chainView (v.withDp { v.dp with enable := true }) = chainView v from rfl]
          exact chainView_enterRetracting_of_closed (congrArg ChainView.phaseOpen view)
        rw [begun, view]
        refine ⟨h.station, head _ rfl rfl, record _ rfl, by simp, by simp, by simp, fun hs => ?_, h.decided, by simp [hold],
          fun hu' => absurd (station.trans hu') hu, Nat.zero_le _, List.nodup_nil⟩
        exact absurd hs noStop
      · split
        · next hs =>
          obtain ⟨hst, hp⟩ := hs
          refine idle_fits cleared ?_ ?_ ?_
          · rw [executor]
            exact rest
          · by_contra hr
            have := held ((congrArg ChainView.resetPending view).symm.trans (eq_true_of_ne_false hr))
            rw [headSame] at hp
            rw [show (chainView s).head = .parked from hp] at this
            cases this
          · exact congrArg ChainView.retractPending view
        · exact cleared

/-- R73, R164: what an accepted JOB START sets before its fetch. -/
theorem chainView_startChain (s : State) : chainView (startChain s) =
    { chainView s with station := .running, decided := none, reported := false } := by
  obtain ⟨l, he, _⟩ := setStation_eq .running s
  unfold startChain startEnable
  rw [he]
  dsimp only
  split <;> rfl

/-- R73, R164: a JOB START is judged, and accepted its first fetch begins. -/
theorem jobStartTaken_fits (f : ReceivedFrame) (h : (chainView s).Fits) : (chainView (jobStartTaken f s)).Fits := by
  unfold jobStartTaken
  split
  · exact h
  · next i _ =>
    split
    · rwa [chainView_raise]
    · next hr =>
      simp only [startRefused, Bool.or_eq_true, bne_iff_ne, ne_eq, not_or, not_not] at hr
      obtain ⟨⟨⟨idle, _⟩, parked⟩, _⟩ := hr
      have station := h.station
      rw [show (chainView s).station = .idle from idle] at station
      have executor : (chainView s).executor = .idle := station
      have parked' : (chainView s).head = .parked := parked
      refine beginFetch_fits i ?_
      rw [chainView_startChain]
      refine ⟨rfl, ?_, ?_, ?_, h.phaseClosed_of_rest (by simp [executor]), fun _ => parked, by simp, h.joints⟩
      · by_contra hp
        rcases h.resetPending (eq_true_of_ne_false hp) with ⟨hr, _⟩ | ⟨_, hr⟩
        · rw [show (chainView s).station = .idle from idle] at hr
          cases hr
        · rw [parked'] at hr
          cases hr
      · by_contra hp
        have := (h.pendingRetract (eq_true_of_ne_false hp)).1
        simp [parked'] at this
      · by_contra ht
        have := h.target ht
        simp [executor] at this

/-! ### Frames that the chain does not read -/

theorem chainView_overrideTaken (f : ReceivedFrame) (s : State) : chainView (overrideTaken f s) = chainView s := by
  unfold overrideTaken
  extract_lets x y
  rw [chainView_raiseIf]
  rfl

theorem chainView_passLoadTaken (f : ReceivedFrame) (s : State) : chainView (passLoadTaken f s) = chainView s := by
  unfold passLoadTaken
  extract_lets bs r u
  have : chainView u = chainView s := by
    unfold u
    split <;> rfl
  exact this

theorem chainView_regionLoadTaken (f : ReceivedFrame) (s : State) : chainView (regionLoadTaken f s) = chainView s := rfl

theorem chainView_stationRequest (f : ReceivedFrame) (s : State) : chainView (stationRequest f s) = chainView s := by
  unfold stationRequest
  split <;> rfl

theorem chainView_completionRequest (f : ReceivedFrame) (s : State) : chainView (completionRequest f s) = chainView s := by
  unfold completionRequest
  split
  · show chainView (if clearAsked f then setCompletionPending false s else s) = _
    split
    · exact chainView_setCompletionPending false s
    · rfl
  · rfl

theorem chainView_attentionRequest (f : ReceivedFrame) (s : State) : chainView (attentionRequest f s) = chainView s := by
  unfold attentionRequest
  split
  · show chainView (if clearAsked f then clearFlags s else s) = _
    split
    · exact chainView_clearFlags s
    · rfl
  · rfl

theorem chainView_jointsRequest (f : ReceivedFrame) (s : State) : chainView (jointsRequest f s) = chainView s := by
  unfold jointsRequest
  split <;> rfl

theorem chainView_formatRequest (f : ReceivedFrame) (s : State) : chainView (formatRequest f s) = chainView s := by
  unfold formatRequest
  split <;> rfl

theorem chainView_lineStarts (rivals : List Byte) (s : State) : chainView (lineStarts rivals s) = chainView s := by
  unfold lineStarts
  split
  · rfl
  · split
    · rfl
    · next f _ =>
      split
      · cases f <;> rfl
      · rfl

theorem chainView_lineLeft (s : State) : chainView (lineLeft s) = chainView s := by
  unfold lineLeft
  split <;> rfl

theorem chainView_feedbackReceived (m : List Byte) (s : State) :
    ∃ t, execFeedbackReceived m s = .next t ∧ chainView t = chainView s := by
  unfold execFeedbackReceived
  split
  · exact ⟨_, rfl, rfl⟩
  · exact ⟨_, rfl, rfl⟩

/-! ### Every command -/

theorem settle_fits (h : (chainView s).Fits) : (chainView (settle s)).Fits := by rwa [chainView_settle]

/-- A row that names one outcome, and does nothing where it would not come about (log 2). -/
theorem outcome_fits {p : Prop} [Decidable p] (h : (chainView s).Fits) (ht : p → (chainView t).Fits) :
    (chainView (if p then settle t else s)).Fits := by
  split
  · next hp => exact settle_fits (ht hp)
  · exact h

theorem unless_fits {p : Prop} [Decidable p] (h : (chainView s).Fits) (ht : ¬ p → (chainView t).Fits) :
    (chainView (if p then s else settle t)).Fits := by
  split
  · exact h
  · next hp => exact settle_fits (ht hp)

/-- A frame whose owner keeps the discipline. -/
theorem onFrame_fits (h : (chainView s).Fits) (k : FrameKind) (bs : List Byte) {act : ReceivedFrame → State → State}
    (ha : ∀ f, (chainView (act f (receptionEnds s))).Fits) : (chainView (onFrame k bs act s)).Fits := by
  unfold onFrame
  split
  · exact h
  · next f _ => exact settle_fits (ha f)

/-- A frame whose owner does not touch the chain. -/
theorem onFrame_fits_of_view (h : (chainView s).Fits) (k : FrameKind) (bs : List Byte) {act : ReceivedFrame → State → State}
    (ha : ∀ f t, chainView (act f t) = chainView t) : (chainView (onFrame k bs act s)).Fits :=
  onFrame_fits h k bs (fun f => by rw [ha]; exact h)

/-- R178: a release of the stop line. -/
theorem estopReleased_fits (h : (chainView s).Fits) : (chainView (s.withDp { s.dp with estop := false })).Fits :=
  ⟨h.station, h.head, h.record, h.travel, h.target, h.pendingRetract, by rintro ⟨⟩, h.decided, h.resetPending, h.unconfigured,
    h.joints⟩

/-- R117. -/
theorem clampOpens_fits (h : (chainView s).Fits) : (chainView (clampOpens s)).Fits := by
  unfold clampOpens
  extract_lets x u
  have opened : (chainView u).Fits := h
  split
  · exact headFault_fits _ opened.stoppable
  · exact opened

theorem executorCloses_fits (h : (chainView s).Fits) : (chainView (executorCloses s)).Fits := by
  unfold executorCloses
  split
  · next hw => exact closeIfRest_of_fits h (by simpa [waitingForRest] using hw)
  · split
    · next hx => exact completeFetch_fits h hx
    · exact h

/-- Every command keeps the discipline. -/
theorem exec_fits (h : (chainView s).Fits) (c : Instr) : ∃ t, exec c s = .next t ∧ (chainView t).Fits := by
  have held : (chainView (receptionEnds s)).Fits := h
  cases c with
  | powerUp l => exact ⟨_, rfl, powerUp_fits l⟩
  | intervalClockExpiry o =>
    exact ⟨_, rfl, settle_fits (orderedWork_fits (s := { s with clock := s.clock + 1 }) o h)⟩
  | neighbourTableAgeing => exact ⟨_, rfl, settle_fits (ageingEvent_fits h)⟩
  | entryGoesSilent r => exact ⟨_, rfl, outcome_fits h fun _ => ageingEvent_fits h⟩
  | travelComputation => exact ⟨_, rfl, settle_fits (travelEvent_fits h)⟩
  | stall => exact ⟨_, rfl, outcome_fits h fun _ => travelEvent_fits h⟩
  | holdExpired => exact ⟨_, rfl, outcome_fits h fun _ => travelEvent_fits h⟩
  | headExpiryWork => exact ⟨_, rfl, settle_fits (headExpiry_fits _ h)⟩
  | spinTimeout => exact ⟨_, rfl, outcome_fits h fun _ => headExpiry_fits _ h⟩
  | plungeTimeout => exact ⟨_, rfl, outcome_fits h fun _ => headExpiry_fits _ h⟩
  | dwellEnd => exact ⟨_, rfl, outcome_fits h fun _ => headExpiry_fits _ h⟩
  | forceLost => exact ⟨_, rfl, outcome_fits h fun _ => headExpiry_fits _ h⟩
  | retractTimeout => exact ⟨_, rfl, outcome_fits h fun _ => headExpiry_fits _ h⟩
  | pendingRetractStart => exact ⟨_, rfl, outcome_fits h fun _ => headExpiry_fits _ h⟩
  | jointUnitExpiry => exact ⟨_, rfl, settle_fits (by rwa [chainView_jointExpiry])⟩
  | coolingRunsOut => exact ⟨_, rfl, outcome_fits h fun _ => by rwa [chainView_jointExpiry]⟩
  | pauseEnd =>
    refine ⟨_, rfl, outcome_fits h fun hp => pauseCounts_fits h ?_⟩
    rw [Bool.and_eq_true] at hp
    exact hp.1
  | feedbackLost => exact ⟨_, rfl, outcome_fits h fun _ => portWork_fits h⟩
  | demandMessage => exact ⟨_, rfl, h⟩
  | beaconPeriodDue => exact ⟨_, rfl, outcome_fits h fun _ => by rwa [chainView_periodWork]⟩
  | holdOffEnd => exact ⟨_, rfl, settle_fits (by rwa [chainView_holdOffWork])⟩
  | frameStart rivals => exact ⟨_, rfl, by rwa [chainView_lineStarts]⟩
  | frameLeftLine => exact ⟨_, rfl, by rwa [chainView_lineLeft]⟩
  | frameDiscarded bs => exact ⟨_, rfl, h⟩
  | beacon bs => exact ⟨_, rfl, onFrame_fits h _ bs fun f => beaconTaken_fits f held⟩
  | heldRecordStart => exact ⟨_, rfl, settle_fits (startHeld_fits h)⟩
  | halt bs => exact ⟨_, rfl, onFrame_fits h _ bs fun _ => haltTaken_fits held (.inl rfl)⟩
  | lineReset bs => exact ⟨_, rfl, onFrame_fits h _ bs fun _ => lineResetTaken_fits held⟩
  | lineResetTakesEffect => exact ⟨_, rfl, unless_fits h fun hn => lineResetTakesEffect_fits h hn⟩
  | setup bs => exact ⟨_, rfl, onFrame_fits h _ bs fun f => setupTaken_fits f held⟩
  | jobStart bs => exact ⟨_, rfl, onFrame_fits h _ bs fun f => jobStartTaken_fits f held⟩
  | jobClear bs => exact ⟨_, rfl, onFrame_fits h _ bs fun _ => jobClearTaken_fits held⟩
  | override bs => exact ⟨_, rfl, onFrame_fits_of_view h _ bs chainView_overrideTaken⟩
  | passLoad bs => exact ⟨_, rfl, onFrame_fits_of_view h _ bs chainView_passLoadTaken⟩
  | regionLoad bs => exact ⟨_, rfl, onFrame_fits_of_view h _ bs chainView_regionLoadTaken⟩
  | statusRequestStation bs => exact ⟨_, rfl, onFrame_fits_of_view h _ bs chainView_stationRequest⟩
  | statusRequestCompletion bs => exact ⟨_, rfl, onFrame_fits_of_view h _ bs chainView_completionRequest⟩
  | statusRequestAttention bs => exact ⟨_, rfl, onFrame_fits_of_view h _ bs chainView_attentionRequest⟩
  | statusRequestJoints bs => exact ⟨_, rfl, onFrame_fits_of_view h _ bs chainView_jointsRequest⟩
  | statusRequestFormat bs => exact ⟨_, rfl, onFrame_fits_of_view h _ bs chainView_formatRequest⟩
  | feedbackReceived m =>
    obtain ⟨t, ht, view⟩ := chainView_feedbackReceived m s
    exact ⟨t, ht, view ▸ h⟩
  | feedbackTaken => exact ⟨_, rfl, settle_fits (takeFeedback_fits _ h)⟩
  | spinUpComplete => exact ⟨_, rfl, outcome_fits h fun _ => takeFeedback_fits _ h⟩
  | plungeComplete => exact ⟨_, rfl, outcome_fits h fun _ => takeFeedback_fits _ h⟩
  | retractComplete => exact ⟨_, rfl, outcome_fits h fun _ => takeFeedback_fits _ h⟩
  | recordClose => exact ⟨_, rfl, settle_fits (executorCloses_fits h)⟩
  | emergencyStopAsserted => exact ⟨_, rfl, unless_fits h fun _ => estopAsserted_fits h⟩
  | emergencyStopReleased => exact ⟨_, rfl, estopReleased_fits h⟩
  | clampLineFalse => exact ⟨_, rfl, outcome_fits h fun _ => clampOpens_fits h⟩
  | clampLineTrue => exact ⟨_, rfl, h⟩

/-- Settles O6: the discipline is one of the view of the chain, and every command keeps it; the ranges are not needed. -/
theorem disciplineKept : Obligations.DisciplineKept := by
  intro s t _ hd ht
  unfold step at ht
  split at ht
  · cases ht
    exact hd
  · next c rest _ =>
    have dequeued : (chainView { s with pending := rest }).Fits := (disciplined_iff s).mp hd
    obtain ⟨u, hu, hf⟩ := exec_fits dequeued c
    cases hu.symm.trans ht
    exact (disciplined_iff t).mpr hf

end Sys2Proof.Machine

namespace Sys2Proof.Machine

variable {s t : State}

/-! ### The permitted speed (R30) -/

/-- R30: the permitted speed is the largest from which a stop by steps of D covers no more than d. -/
theorem le_permittedSpeed_iff (decel d v : Nat) : v ≤ permittedSpeed decel d ↔ v * (v + decel) ≤ 2 * decel * d := by
  have square : (2 * v + decel) * (2 * v + decel) = decel * decel + 4 * (v * (v + decel)) := by ring
  have product : 8 * decel * d = 4 * (2 * decel * d) := by ring
  have base : decel ≤ isqrt (decel * decel + 8 * decel * d) := le_isqrt (Nat.le_add_right _ _)
  have root : 2 * v + decel ≤ isqrt (decel * decel + 8 * decel * d) ↔ v * (v + decel) ≤ 2 * decel * d := by
    constructor
    · intro h
      have := (Nat.mul_le_mul h h).trans (isqrt_spec _).1
      omega
    · intro h
      refine le_isqrt ?_
      omega
  rw [← root]
  unfold permittedSpeed
  omega

theorem permittedSpeed_eq_iff (decel d v : Nat) : permittedSpeed decel d = v ↔
    v * (v + decel) ≤ 2 * decel * d ∧ 2 * decel * d < (v + 1) * (v + 1 + decel) := by
  have h1 := le_permittedSpeed_iff decel d v
  have h2 := le_permittedSpeed_iff decel d (v + 1)
  rw [← h1, ← Nat.not_le, ← h2]
  omega

theorem permittedSpeed_pos {decel d : Nat} (hD : 1 ≤ decel) (hd : 1 ≤ d) : 1 ≤ permittedSpeed decel d := by
  rw [le_permittedSpeed_iff]
  nlinarith [Nat.mul_le_mul hD hd]

@[simp] theorem permittedSpeed_zero (decel : Nat) : permittedSpeed decel 0 = 0 := by
  rw [permittedSpeed_eq_iff]
  constructor
  · simp
  · simp only [Nat.mul_zero]
    positivity

/-- The curve keeps the stop within D: a speed that stops in `d` has, one step of D lower, what is left of `d`. -/
theorem stop_after_step {decel d v : Nat} (hv : v ≤ d) (h : v * (v + decel) ≤ 2 * decel * d) :
    (v - decel) * (v - decel + decel) ≤ 2 * decel * (d - v) := by
  rcases Nat.le_total v decel with hl | hl
  · simp [Nat.sub_eq_zero_of_le hl]
  · obtain ⟨x, rfl⟩ := Nat.exists_eq_add_of_le hl
    obtain ⟨y, rfl⟩ := Nat.exists_eq_add_of_le hv
    simp only [Nat.add_sub_cancel_left]
    nlinarith

theorem newSpeed_pos (c : Constants) {v target d : Nat} (ha : 1 ≤ c.accel) (hD : 1 ≤ c.decel) (ht : 1 ≤ target) (hd : 1 ≤ d) :
    1 ≤ newSpeed c v target d := by
  have clamped : 1 ≤ min d Config.distanceClamp := by
    simp only [Config.distanceClamp]
    omega
  have permitted := permittedSpeed_pos hD clamped
  have ramped : 1 ≤ rampedSpeed c.accel c.decel v target := by
    unfold rampedSpeed
    split <;> omega
  unfold newSpeed
  omega

/-- Settles O13; the obligation's own name is that of the model's function. -/
theorem permittedSpeed_largest : Obligations.PermittedSpeed := by
  refine ⟨isqrt_spec, fun decel d hD hD' => ⟨by rw [permittedSpeed, pow_two], ?_,
      fun v => (le_permittedSpeed_iff decel d v).mpr,
    permittedSpeed_zero decel, permittedSpeed_pos hD, fun hd => ?_, fun v => stop_after_step⟩,
    fun c v target d ha hD _ ht hd => newSpeed_pos c ha hD ht hd, ?_⟩
  · exact (le_permittedSpeed_iff decel d _).mp (Nat.le_refl _)
  · have squared : decel ^ 2 ≤ 32 ^ 2 := Nat.pow_le_pow_left hD' 2
    have product : 8 * decel * d ≤ 8 * 32 * 8388607 := Nat.mul_le_mul (by omega) hd
    omega
  · simp only [permittedSpeed_eq_iff]
    norm_num

/-! ### The ramp and the target (R31, R32) -/

theorem targetSpeed_of_closed (h : s.tg.phaseOpen = false) : targetSpeed s = 0 := by simp [targetSpeed, h]

theorem targetSpeed_of_open {m : MotionTarget} {p : Nat} (ho : s.tg.phaseOpen = true) (hm : s.tg.target = some m)
    (hp : s.tg.p = some p) : targetSpeed s = recordSpeed m (decodeRegion s.rm p).derate s.px.overrideInForce := by
  simp [targetSpeed, ho, hm, descriptorAtP, hp]

/-- With a target of 0 the speed comes down by D. -/
theorem rampedSpeed_zero (accel decel v : Nat) : rampedSpeed accel decel v 0 = v - decel := by
  unfold rampedSpeed
  split <;> omega

/-- Settles O14. -/
theorem rampFollowsTarget : Obligations.RampFollowsTarget := by
  refine ⟨fun accel decel v target => ?_, fun s hc => ?_, fun s p m ho hm hp => ?_⟩
  · unfold rampedSpeed
    refine ⟨?_, ?_, ?_, ?_, ?_⟩ <;> intros <;> split <;> omega
  · rw [targetSpeed_of_closed hc]
    exact ⟨rfl, rampedSpeed_zero _ _ _⟩
  · rw [targetSpeed_of_open ho hm hp]
    unfold recordSpeed
    refine ⟨fun hk => by rw [hk]; rfl, fun hk => ?_⟩
    cases hk' : m.kind with
    | move => exact absurd hk' hk
    | dry => rfl
    | weld => rfl

/-! ### The fence (R25 to R29) -/

/-- R28: a candidate as a bound on the way ahead: one behind the carriage taken as p. -/
def aheadOrHere (d : Direction) (p x : Int) : Int :=
  match d with
  | .up => max p x
  | .down => min p x

/-- `f` is no farther on than `y`. -/
def NoFarther (d : Direction) (f y : Int) : Prop :=
  match d with
  | .up => f ≤ y
  | .down => y ≤ f

/-- R29: `f` is the nearest of the candidates `C`. -/
def Nearest (d : Direction) (p : Nat) (C : Int → Prop) (f : Nat) : Prop :=
  (∀ x, C x → NoFarther d f (aheadOrHere d p x)) ∧ ∃ x, C x ∧ (f : Int) = aheadOrHere d p x

theorem Nearest.congr {d : Direction} {p f : Nat} {C D : Int → Prop} (h : Nearest d p C f) (he : ∀ x, C x ↔ D x) :
    Nearest d p D f := by
  obtain ⟨bound, x, hx, hf⟩ := h
  exact ⟨fun y hy => bound y ((he y).mpr hy), x, (he x).mp hx, hf⟩

/-- R29: the nearer of a fence and a further candidate `o`, which stands for the candidates `D`. -/
theorem Nearest.nearer {d : Direction} {p f : Nat} {C D : Int → Prop} (h : Nearest d p C f) (o : Option Nat)
    (stands : ∀ x, D x → ∃ y, o = some y ∧ aheadOrHere d p x = aheadOrHere d p y)
    (given : ∀ y, o = some y → ∃ x, D x ∧ aheadOrHere d p x = aheadOrHere d p y) :
    Nearest d p (fun x => C x ∨ D x) (nearer d p f o) := by
  obtain ⟨bound, z, hz, hf⟩ := h
  cases o with
  | none =>
    refine ⟨fun x hx => ?_, z, .inl hz, hf⟩
    rcases hx with hx | hx
    · exact bound x hx
    · obtain ⟨y, hy, _⟩ := stands x hx
      cases hy
  | some y =>
    obtain ⟨w, hw, hwy⟩ := given y rfl
    have nearest : ((Machine.nearer d p f (some y) : Nat) : Int) = (match d with
        | .up => min (f : Int) (aheadOrHere d p y)
        | .down => max (f : Int) (aheadOrHere d p y)) := by
      cases d <;> simp [Machine.nearer, notBehind, aheadOrHere]
    constructor
    · intro x hx
      have step : NoFarther d f (aheadOrHere d p x) ∨ aheadOrHere d p x = aheadOrHere d p y := by
        rcases hx with hx | hx
        · exact .inl (bound x hx)
        · obtain ⟨y', hy', he⟩ := stands x hx
          cases hy'
          exact .inr he
      rw [nearest]
      cases d <;> simp only [NoFarther] at step ⊢ <;> omega
    · have chosen : ((Machine.nearer d p f (some y) : Nat) : Int) = f
          ∨ ((Machine.nearer d p f (some y) : Nat) : Int) = aheadOrHere d p y := by
        rw [nearest]
        cases d <;> simp only <;> omega
      rcases chosen with hc | hc
      · exact ⟨z, .inl hz, hc.trans hf⟩
      · exact ⟨w, .inr hw, hc.trans hwy.symm⟩

theorem driftOf_eq (accel : Nat) (d reported : Direction) (speed n : Nat) :
    driftOf accel d reported speed n = driftBound accel (speedToward d reported speed) n := by
  simp [driftOf, driftBound, speedToward]

/-- R25, R26: the neighbour's part of the candidates. -/
def NeighbourBound (s : State) (d : Direction) (p : Nat) (x : Int) : Prop :=
  match neighbourView s d with
  | .none => False
  | .silent => x = p
  | .live q dir speed n =>
    match d with
    | .up => x = (q : Int) - s.constants.spacing - driftOf s.constants.accel .up dir speed n
    | .down => x = (q : Int) + s.constants.spacing + driftOf s.constants.accel .down dir speed n

/-- The candidates by where they come from (R28). -/
theorem candidate_iff (s : State) (p : Nat) (x : Int) : Candidate s p x ↔
    ((x = railLimit s.constants s.tg.dir ∨ NeighbourBound s s.tg.dir p x) ∨ (∃ e : Nat, s.tg.lastEnd = some e ∧ x = e))
      ∨ ∃ a, s.ju.awaited = some a ∧ a.state ≠ .clear ∧ x = a.hold := by
  constructor
  · rintro (hd | hd | hv | ⟨q, dir, speed, n, hd, hv⟩ | ⟨q, dir, speed, n, hd, hv⟩ | ⟨e, he⟩ | ⟨a, ha, hs⟩)
    · exact .inl (.inl (.inl (by rw [hd]; rfl)))
    · exact .inl (.inl (.inl (by rw [hd]; rfl)))
    · exact .inl (.inl (.inr (by simp [NeighbourBound, hv])))
    · exact .inl (.inl (.inr (by simp [NeighbourBound, hd, hv])))
    · exact .inl (.inl (.inr (by simp [NeighbourBound, hd, hv])))
    · exact .inl (.inr ⟨_, he, rfl⟩)
    · exact .inr ⟨a, ha, hs, rfl⟩
  · rintro (((rfl | hn) | ⟨e, he, rfl⟩) | ⟨a, ha, hs, rfl⟩)
    · cases hd : s.tg.dir with
      | up => exact .railUp hd
      | down => exact .railDown hd
    · unfold NeighbourBound at hn
      split at hn
      · exact hn.elim
      · next hv =>
        subst hn
        exact .silent hv
      · next q dir speed n hv =>
        split at hn
        · next hd =>
          subst hn
          exact .liveUp q dir speed n hd (hd ▸ hv)
        · next hd =>
          subst hn
          exact .liveDown q dir speed n hd (hd ▸ hv)
    · exact .lastEnd e he
    · exact .hold a ha hs

/-- R25 to R29. -/
theorem fenceAt_nearest (s : State) (p : Nat) : Nearest s.tg.dir p (Candidate s p) (fenceAt s p) := by
  have rail : Nearest s.tg.dir p (fun x => x = railLimit s.constants s.tg.dir)
      (notBehind s.tg.dir p (railLimit s.constants s.tg.dir)) := by
    cases s.tg.dir <;> simp only [Nearest, NoFarther, aheadOrHere, notBehind, forall_eq, exists_eq_left] <;> omega
  have neighbour := rail.nearer (D := NeighbourBound s s.tg.dir p)
    (neighbourCandidate s.constants s.tg.dir p (neighbourView s s.tg.dir)) ?_ ?_
  have last := neighbour.nearer (D := fun x => ∃ e : Nat, s.tg.lastEnd = some e ∧ x = e) s.tg.lastEnd ?_ ?_
  have hold := last.nearer (D := fun x => ∃ a, s.ju.awaited = some a ∧ a.state ≠ .clear ∧ x = a.hold) (holdCandidate s.ju) ?_ ?_
  · exact hold.congr (fun x => (candidate_iff s p x).symm)
  · rintro x ⟨a, ha, hs, rfl⟩
    exact ⟨a.hold, by simp [holdCandidate, ha, hs], rfl⟩
  · intro y hy
    unfold holdCandidate at hy
    split at hy
    · next a ha =>
      split at hy
      · cases hy
      · next hs =>
        cases hy
        exact ⟨_, ⟨a, ha, hs, rfl⟩, rfl⟩
    · cases hy
  · rintro x ⟨e, he, rfl⟩
    exact ⟨e, he, rfl⟩
  · intro y hy
    exact ⟨y, ⟨y, hy, rfl⟩, rfl⟩
  · intro x hx
    unfold NeighbourBound at hx
    split at hx
    · exact hx.elim
    · next hv => exact ⟨p, by rw [hv]; rfl, by rw [hx]⟩
    · next q dir speed n hv =>
      cases hd : s.tg.dir with
      | up =>
        simp only [hd] at hx hv
        refine ⟨_, by rw [hv]; rfl, ?_⟩
        rw [hx, driftOf_eq]
        simp only [aheadOrHere]
        omega
      | down =>
        simp only [hd] at hx hv
        refine ⟨_, by rw [hv]; rfl, ?_⟩
        rw [hx, driftOf_eq]
        simp only [aheadOrHere]
        omega
  · intro y hy
    unfold NeighbourBound
    cases hv : neighbourView s s.tg.dir with
    | none =>
      rw [hv] at hy
      cases hy
    | silent =>
      rw [hv] at hy
      cases hy
      exact ⟨_, rfl, rfl⟩
    | live q dir speed n =>
      cases hd : s.tg.dir with
      | up =>
        rw [hv, hd] at hy
        cases hy
        refine ⟨_, rfl, ?_⟩
        rw [driftOf_eq]
        simp only [aheadOrHere]
        omega
      | down =>
        rw [hv, hd] at hy
        cases hy
        refine ⟨_, rfl, ?_⟩
        rw [driftOf_eq]
        simp only [aheadOrHere]
        omega

/-- Settles O16. -/
theorem fenceIsNearest : Obligations.FenceIsNearest := by
  intro s p
  have h := fenceAt_nearest s p
  constructor <;> intro hd <;> rw [hd] at h <;> exact h

end Sys2Proof.Machine

namespace Sys2Proof.Machine

variable {s t u : State}

/-! ### What a travel computation's report leaves of the carriage (R33 to R37) -/

/-- `t` has the carriage of `s` where it was: p, v and fence, with the flag of R33 and no LINE RESET pending. -/
structure Still (s t : State) : Prop where
  place : t.tg.p = s.tg.p
  speed : t.tg.v = s.tg.v
  fence : t.tg.fence = s.tg.fence
  intrusion : t.flag .fenceIntrusion = s.flag .fenceIntrusion
  noReset : t.su.lineResetPending = s.su.lineResetPending

namespace Still

theorem refl (s : State) : Still s s := ⟨rfl, rfl, rfl, rfl, rfl⟩

theorem trans (h : Still s t) (k : Still t u) : Still s u :=
  ⟨k.place.trans h.place, k.speed.trans h.speed, k.fence.trans h.fence, k.intrusion.trans h.intrusion,
    k.noReset.trans h.noReset⟩

theorem ite {p : Prop} [Decidable p] (h : Still s t) (k : Still s u) : Still s (if p then t else u) := by
  split
  · exact h
  · exact k

/-- An operation that leaves the Travel Governor and the Status Unit as they are. -/
theorem of_keeps {l : List Part} (h : Keeps l s t) (htg : Part.tg ∉ l) (hsu : Part.su ∉ l) : Still s t := by
  have tg : t.tg = s.tg := h .tg htg
  have su : t.su = s.su := h .su hsu
  exact ⟨by rw [tg], by rw [tg], by rw [tg], by rw [State.flag, su]; rfl, by rw [su]⟩

theorem raise (f : AttentionFlag) (hf : f ≠ .fenceIntrusion) (s : State) : Still s (Machine.raise f s) := by
  have tg : (Machine.raise f s).tg = s.tg := raise_keeps f s .tg (by decide)
  refine ⟨by rw [tg], by rw [tg], by rw [tg], ?_, ?_⟩
  · rw [State.flag_raise, decide_eq_false hf.symm, Bool.or_false]
  · obtain ⟨l, he, _⟩ := raise_eq f s
    rw [he]

theorem withdrawTarget (s : State) : Still s (withdrawTarget s) := ⟨rfl, rfl, rfl, rfl, rfl⟩

theorem closeJoints (k : EndKind) (s : State) : Still s (closeJoints k s) := by
  obtain ⟨l, he, _⟩ := closeJoints_eq k s
  rw [he]
  exact ⟨rfl, rfl, rfl, (flag_raisedIf _ _ _ _).trans (by simp; rfl), rfl⟩

theorem closeStopping (e : Decision) (h : s.su.lineResetPending = false) : Still s (closeStopping e s) := by
  obtain ⟨l, he, _⟩ := closeStopping_eq e s h
  rw [he]
  exact ⟨rfl, rfl, rfl, (flag_raisedIf _ _ _ _).trans (by simp; rfl), rfl⟩

theorem enterRetracting (s : State) : Still s (enterRetracting s) := by
  obtain ⟨l, v, he, _⟩ := enterRetracting_eq s
  rw [he]
  exact ⟨rfl, rfl, rfl, rfl, rfl⟩

theorem normalRetract (s : State) : Still s (normalRetract s) :=
  Still.ite ⟨rfl, rfl, rfl, rfl, rfl⟩ ((Still.enterRetracting s).ite (.refl s))

theorem retractOnReport (s : State) : Still s (retractOnReport s) := (Still.enterRetracting s).ite (.refl s)

theorem headPathEnd (s : State) : Still s (headPathEnd s) := by
  unfold Machine.headPathEnd
  split
  · exact (Still.refl s).ite (.retractOnReport s)
  · exact .retractOnReport s

theorem setExecutor (x : ExecutorState) (s : State) : Still s (setExecutor x s) :=
  .of_keeps (setExecutor_keeps x s) (by decide) (by decide)

theorem withPx (s : State) (x : PassExecutor) : Still s (s.withPx x) := ⟨rfl, rfl, rfl, rfl, rfl⟩

theorem decideEnd (e : Decision) (s : State) : Still s (decideEnd e s) := .withPx s _

/-- R79. -/
theorem programCheck (d : Detail) (h : s.su.lineResetPending = false) : Still s (programCheck d s) := by
  unfold Machine.programCheck
  extract_lets e x u v w
  have hu : Still s u := (Still.withPx s _).trans (.raise .programCheck (by decide) _)
  have hw : Still s w := ((hu.trans (.withdrawTarget u)).trans ((Still.decideEnd e _).trans (.setExecutor _ _))).trans
    (.normalRetract v)
  split
  · exact hu.trans (.closeStopping e (hu.noReset.trans h))
  · exact (hw.trans (.closeStopping e (hw.noReset.trans h))).ite hw

theorem takeIndex (i : Nat) (s : State) : Still s (takeIndex i s) := by
  unfold Machine.takeIndex Machine.notifyFetch
  extract_lets u x v
  have hv : Still s v := (Still.of_keeps (setIndex_keeps i s) (by decide) (by decide)).trans (.withPx u _)
  split
  · exact (hv.trans (.raise .notify (by decide) v)).trans ⟨rfl, rfl, rfl, rfl, rfl⟩
  · exact hv

/-- R75. -/
theorem beginFetch (role : Role) (i : Nat) (h : s.su.lineResetPending = false) : Still s (beginFetch role i s) := by
  unfold Machine.beginFetch
  extract_lets x u
  have hu : Still s u := (Still.withPx s _).trans (.setExecutor _ _)
  have hv := hu.trans (.withPx u { u.px with record := none })
  exact (hv.trans (.programCheck _ (hv.noReset.trans h))).ite (hu.trans (.takeIndex i u))

/-- R89. -/
theorem closeRecord (h : s.su.lineResetPending = false) : Still s (closeRecord s) := by
  unfold Machine.closeRecord
  split
  · exact .refl s
  · next e _ =>
    split
    · exact .closeStopping e h
    · next role i _ =>
      have hw := (Still.closeJoints e.kind s).trans (.withdrawTarget (Machine.closeJoints e.kind s))
      refine Still.trans (hw.trans (.withPx _ _)) (.beginFetch role i ?_)
      exact hw.noReset.trans h

theorem closeIfRest (h : s.su.lineResetPending = false) : Still s (closeIfRest s) := (Still.closeRecord h).ite (.refl s)

/-- R84, R85. -/
theorem travelReported (r : TravelReport) (h : s.su.lineResetPending = false) : Still s (travelReported r s) := by
  have short (e : Decision) (v : State) (hv : Still s v) : Still s (executorShortEnd e v) := by
    refine Still.ite ?_ hv
    have hw := (hv.trans (.decideEnd e v)).trans (.setExecutor .awaitHeadEnd _)
    exact hw.trans (.closeIfRest (hw.noReset.trans h))
  cases r with
  | none => exact .refl s
  | pathEnd =>
    have hv : Still s (if s.tg.target.any (fun t => t.kind == .weld) then Machine.headPathEnd s else s) :=
      (Still.headPathEnd s).ite (.refl s)
    refine Still.trans hv (Still.ite ?_ (.refl _))
    have hd := Still.decideEnd ⟨.complete, none⟩
      (if s.tg.target.any (fun t => t.kind == .weld) then Machine.headPathEnd s else s)
    have he := hd.trans (.setExecutor .awaitHeadEnd _)
    have noReset := hv.noReset.trans h
    exact (hd.trans (.closeRecord (hd.noReset.trans noReset))).ite
      (he.trans (.closeIfRest (he.noReset.trans noReset)))
  | stall => exact short _ s (.refl s)
  | holdExpired => exact short _ _ (.retractOnReport s)
  | holdStop => exact short _ _ (.retractOnReport s)

end Still

/-! ### A travel computation -/

/-- R24: the computation made at an expiry. -/
theorem travelEvent_of_due {p : Nat} (hp : s.tg.p = some p) (hd : s.tg.phaseOpen = true ∨ 0 < s.tg.v) :
    travelEvent s = travelReported (computeTravel s p).report (applyTravel (computeTravel s p) s) := by
  have : travelDue s = some (computeTravel s p) := by
    simp only [travelDue, hp]
    rw [if_pos (by simpa using hd)]
  rw [travelEvent, this]

/-- With p unknown, or the travel phase closed and v at 0, none is made (log 21). -/
theorem travelEvent_of_not_due (h : s.tg.p = none ∨ (s.tg.phaseOpen = false ∧ s.tg.v = 0)) : travelEvent s = s := by
  have : travelDue s = none := by
    rcases h with hp | ⟨ho, hv⟩
    · simp [travelDue, hp]
    · unfold travelDue
      split
      · rfl
      · simp [ho, hv]
  rw [travelEvent, this]

theorem applyTravel_eq (r : TravelResult) (s : State) : ∃ l, applyTravel r s = { s with
    tg := { s.tg with
      p := some r.p, v := r.v, fence := some r.fence, stallCount := r.stallCount, stirCount := r.stirCount
      phaseOpen := s.tg.phaseOpen && decide (r.report = .none) }
    su := { s.su with
      flags := if r.intrusion then s.su.flags ||| (1#14 <<< AttentionFlag.fenceIntrusion.bit) else s.su.flags }
    pli := l } ∧ LineKeeps s.pli l :=
  raiseIf_eq r.intrusion .fenceIntrusion _

/-- R34 to R36: a computation that moves the carriage, or finds the travel phase closed, reports nothing, and the counters
are 0 where it moves. -/
theorem travelReport_of_moving {p v : Nat} (h : 0 < v ∨ s.tg.phaseOpen = false) : travelReport s p v
    = (.none, if 0 < v then 0 else s.tg.stallCount, if 0 < v then 0 else s.tg.stirCount) := by
  unfold travelReport
  split
  · rfl
  · next hv =>
    simp only [h.resolve_left hv]

/-- R33: the carriage goes toward the fence and not past it. -/
theorem computeTravel_within_fence (s : State) (p : Nat) :
    (s.tg.dir = .up → p + (computeTravel s p).v ≤ fenceAt s p) ∧ (s.tg.dir = .down → fenceAt s p + (computeTravel s p).v ≤ p) := by
  have hv := computeTravel_v_le_distance s p
  unfold distance at hv
  constructor
  · intro hd
    have := (fenceAt_up s p hd).1
    omega
  · intro hd
    have := fenceAt_down s p hd
    omega

/-- Settles O15. -/
theorem travelComputationAdvances : Obligations.TravelComputationAdvances := by
  refine ⟨fun s p hp hd hr => ?_, fun s hq h => ?_⟩
  · obtain ⟨l, he, hl⟩ := applyTravel_eq (computeTravel s p) s
    have quiet (h : 0 < (computeTravel s p).v ∨ s.tg.phaseOpen = false) : (computeTravel s p).report = .none
        ∧ (computeTravel s p).stallCount = (if 0 < (computeTravel s p).v then 0 else s.tg.stallCount)
        ∧ (computeTravel s p).stirCount = (if 0 < (computeTravel s p).v then 0 else s.tg.stirCount) := by
      have := travelReport_of_moving (p := (computeTravel s p).p) h
      exact ⟨congrArg (·.1) this, congrArg (·.2.1) this, congrArg (·.2.2) this⟩
    have still : Still (applyTravel (computeTravel s p) s) (settle (travelEvent s)) := by
      rw [travelEvent_of_due hp hd]
      refine Still.trans ?_ (Still.of_keeps (settle_keeps _) (by decide) (by decide))
      rcases hr with hr | hc
      · exact .travelReported _ (by rw [he]; exact hr)
      · rw [(quiet (.inr hc)).1]
        exact .refl _
    have place : (settle (travelEvent s)).tg.p = some (computeTravel s p).p := still.place.trans (by rw [he])
    have speed : (settle (travelEvent s)).tg.v = (computeTravel s p).v := still.speed.trans (by rw [he])
    have fence : (settle (travelEvent s)).tg.fence = some (fenceAt s p) := still.fence.trans (by rw [he]; rfl)
    have intrusion := still.intrusion
    rw [he] at intrusion
    have within := computeTravel_within_fence s p
    refine ⟨_, rfl, speed, fence, fun hu => ?_, fun hdown => ?_, ?_, fun hv => ?_, ?_, fun h => ?_⟩
    · rw [place, speed]
      refine ⟨?_, within.1 hu⟩
      simp [computeTravel, hu, advance]
    · rw [place, speed]
      refine ⟨?_, within.2 hdown⟩
      simp [computeTravel, hdown, advance]
    · rw [speed]
      exact (newSpeed_le _ _ _ _).1.trans (rampedSpeed_le _ _ _ _).1
    · rw [speed]
      exact ((newSpeed_le _ _ _ _).1.trans (rampedSpeed_le _ _ _ _).2).trans (max_le hv (targetSpeed_le s))
    · rw [intrusion]
      exact (flag_raisedIf _ _ _ _).trans (by simp; rfl)
    · rw [speed] at h ⊢
      obtain ⟨hnone, hstall, hstir⟩ := quiet h
      obtain ⟨l', hs, hl'⟩ := settle_eq (travelEvent s)
      rw [travelEvent_of_due hp hd, hnone, travelReported, he] at hs hl'
      rw [travelEvent_of_due hp hd, hnone, travelReported, he]
      rw [hs]
      refine ⟨fun x hx => by cases x <;> simp_all [Part.same], ⟨fun f hf => ?_, rfl⟩, hl.trans hl', ?_⟩
      · exact (flag_raisedIf _ _ _ _).trans (by simp at hf; simp [hf]; rfl)
      · simp [hnone, hstall, hstir]
  · show Host.Outcome.next (settle (travelEvent s)) = _
    rw [travelEvent_of_not_due h, settle_of_quiet hq]

end Sys2Proof.Machine

namespace Sys2Proof.Machine

variable {s t u : State}

/-! ### The head's expiry, by head state (R103 to R108, R112 to R114) -/

theorem headExpiry_of_dwelling {w : WeldParams} (hs : s.hs.state = .dwelling) (hw : s.hs.weld = some w)
    (hd : w.dwell ≤ oneOn s.hs.phase) (hf : oneOn s.hs.forceAge < 32) (hr : s.hs.retractPending = false) :
    dwellDone (headCounts s) = some w ∧ headExpiry true s = enterStirring w (headCounts s) := by
  have counted : (headCounts s).hs = { s.hs with phase := oneOn s.hs.phase, forceAge := oneOn s.hs.forceAge } := by
    simp [headCounts, countUp_eq_oneOn]
  have done : dwellDone (headCounts s) = some w := by
    simp [dwellDone, counted, hs, hw, hd]
  refine ⟨done, ?_⟩
  have ramped : headRamps (headCounts s) = headCounts s := by
    simp [headRamps, counted, hs]
  have checked : phaseCheck (headCounts s) = enterStirring w (headCounts s) := by
    simp [phaseCheck, phaseTimeout, retractTimedOut, endDwell, counted, hs, done]
  obtain ⟨l, he, _⟩ := enterStirring_eq w (headCounts s)
  have kept : forceCheck (enterStirring w (headCounts s)) = enterStirring w (headCounts s) := by
    have : ¬ 32 ≤ oneOn s.hs.forceAge := by omega
    simp [forceCheck, forceLostFound, he, counted, Config.forceLostAge, this]
  have still : startPendingRetract (enterStirring w (headCounts s)) = enterStirring w (headCounts s) := by
    simp [startPendingRetract, pendingRetractDue, he, counted, hr]
  simp only [headExpiry, ramped, checked, if_true, kept, still]

/-- Settles O36. -/
theorem dwellEndStirs : Obligations.DwellEndStirs := by
  intro s
  refine ⟨fun w m hs hw hd hm hf hr => ?_, fun h => ?_⟩
  · obtain ⟨done, expiry⟩ := headExpiry_of_dwelling hs hw hd hf hr
    have hexec : exec .dwellEnd s = .next (settle (headExpiry true s)) := by
      show Host.Outcome.next (if (dwellDone (headCounts s)).isSome then _ else _) = _
      rw [done]
      rfl
    obtain ⟨l, he, hl⟩ := enterStirring_eq w (headCounts s)
    obtain ⟨l', hs', hl'⟩ := settle_eq (enterStirring w (headCounts s))
    rw [he] at hs' hl'
    rw [expiry, he, hs'] at hexec
    refine ⟨_, hexec, fun x hx => by cases x <;> simp_all [Part.same, headCounts], hl.trans hl', ?_, ?_⟩
    · simp [headCounts, hm]
    · simp [headCounts, countUp_eq_oneOn]
  · have undone : dwellDone (headCounts s) = none := by
      unfold dwellDone
      split
      · next w hs hw =>
        have hs : s.hs.state = .dwelling := hs
        have hd := (h.resolve_left (not_not_intro hs)) w hw
        rw [if_neg]
        simp only [headCounts, State.withHs_hs, countUp_eq_oneOn]
        omega
      · rfl
    show Host.Outcome.next (if (dwellDone (headCounts s)).isSome then _ else _) = _
    rw [undone]
    rfl

/-! ### Ends at once, with the head HALTED (R88, R90, R96, R113) -/

theorem Keeps.drop {l : List Part} {x : Part} (h : Keeps (x :: l) s t) (hx : x.same s t) : Keeps l s t := by
  intro y hy
  by_cases hyx : y = x
  · exact hyx ▸ hx
  · exact h y (by simp [hyx, hy])

/-- R91: with p known no free value is read. -/
theorem closeStopping_freeCount {p : Nat} (e : Decision) (hp : s.tg.p = some p) (h : s.su.lineResetPending = false) :
    (closeStopping e s).freeCount = s.freeCount := by
  obtain ⟨l, he, _⟩ := closeStopping_eq e s h
  rw [he]
  simp [freeAfterPosition, hp]

/-- What a record that closes at once with `e` leaves, with this secondary fault in the completion record (R89, R91). -/
structure Closed (e : Decision) (secondary : Option Detail) (s t : State) : Prop where
  travel : t.tg = withdrawn s.tg
  head : t.hs = s.hs
  station : t.su.station = .stopped
  joints : t.ju = afterClose e.kind s.ju
  executor : ∃ x y, (∀ p, s.tg.p = some p → x = p) ∧ t.px = executorAfter .stopped e secondary x y s
  calm : Calm [.jointVoided] s t
  freeCount : ∀ p, s.tg.p = some p → t.freeCount = s.freeCount

theorem closeStopping_closed {e : Decision} (hn : e.kind.normal = false) (h : s.su.lineResetPending = false) :
    Closed e s.px.secondary s (closeStopping e s) := by
  obtain ⟨travel, head, station, joints, executor, calm⟩ := closeStopping_endsAtOnce hn h
  exact ⟨travel, head, station, joints, executor, calm, fun _ hp => closeStopping_freeCount e hp h⟩

/-- R90: the same with a later cause filed. -/
theorem closeStopping_filed {e : Decision} (d : Detail) (hn : e.kind.normal = false) (h : s.su.lineResetPending = false) :
    Closed e (some (s.px.secondary.getD d)) s (closeStopping e (fileSecondary d s)) := by
  rw [fileSecondary_eq]
  obtain ⟨travel, head, station, joints, executor, calm, free⟩ :=
    closeStopping_closed (s := s.withPx { s.px with secondary := some (s.px.secondary.getD d) }) hn h
  have before (x : PassExecutor) : Calm [.jointVoided] s (s.withPx x) := Calm.of_su (withPx_keeps s x) (by rfl) rfl rfl
  exact ⟨travel, head, station, joints, executor, (before _).trans calm, free⟩

theorem Closed.settle {e : Decision} {x : Option Detail} (h : Closed e x s t) : Closed e x s (settle t) := by
  obtain ⟨l, he, _⟩ := settle_eq t
  have calm := h.calm.settle
  rw [he] at calm ⊢
  exact ⟨h.travel, h.head, h.station, h.joints, h.executor, calm, h.freeCount⟩

/-! ### The emergency stop (R178) -/

theorem estopCause_of_resting (h : s.px.state = .idle ∨ s.px.state = .stopped) : estopCause s = s := by
  rcases h with h | h <;> simp only [estopCause, h]

theorem estopCause_of_ends (h : s.px.state = .fetching ∨ s.px.state = .waitSlot ∨ s.px.state = .active ∨ s.px.state = .halting
      ∨ (s.px.state = .awaitHeadEnd ∧ ∃ e, s.px.decided = some e ∧ NormalEnd e)) :
    estopCause s = closeStopping ⟨.estop, none⟩ s := by
  rcases h with h | h | h | h | ⟨h, e, hd, hn⟩
  · simp only [estopCause, h]
  · simp only [estopCause, h]
  · simp only [estopCause, h]
  · simp only [estopCause, h]
  · simp only [estopCause, h, hd, (normal_iff e).mpr hn, if_true]

theorem estopCause_of_stopping {e : Decision} (h : s.px.state = .awaitHeadEnd) (hd : s.px.decided = some e)
    (hn : ¬ NormalEnd e) : estopCause s = closeStopping e (fileSecondary .estop s) := by
  rw [← normal_iff, Bool.not_eq_true] at hn
  simp only [estopCause, h, hd, hn, Bool.false_eq_true, if_false]

/-- R88: an emergency stop ends the chain, if there is one. -/
theorem estopCause_closed (h : s.su.lineResetPending = false) (hx : ¬ (s.px.state = .idle ∨ s.px.state = .stopped)) :
    ∃ e x, Closed e x s (estopCause s) := by
  have own : Closed ⟨.estop, none⟩ s.px.secondary s (closeStopping ⟨.estop, none⟩ s) := closeStopping_closed rfl h
  simp only [not_or] at hx
  unfold estopCause
  split
  · next hi => exact absurd hi hx.1
  · next hs => exact absurd hs hx.2
  · split
    · split
      · exact ⟨_, _, own⟩
      · next e _ hn => exact ⟨e, _, closeStopping_filed .estop (Bool.eq_false_iff.mpr hn) h⟩
    · exact ⟨_, _, own⟩
  · exact ⟨_, _, own⟩

/-- With no LINE RESET pending none takes effect (R169). -/
theorem heldResetEffect_of_none (h : s.su.lineResetPending = false) : heldResetEffect s = s := by
  simp [heldResetEffect, h]

/-- The head halted, if it is not PARKED or HALTED already (R118). -/
def headHalted (h : HeadSequencer) : HeadSequencer :=
  if h.state = .parked ∨ h.state = .halted then h
  else { h with state := .halted, phase := 0, spindle := 0, trim := 0, retractPending := false, weld := none }

/-- R178: an assertion, up to the executor: the line held, the enable off, v 0 at once, the head halted. -/
theorem estopAsserted_halts (s : State) : ∃ u l, estopAsserted s = heldResetEffect (estopCause u)
    ∧ u = { s with
      dp := { s.dp with estop := true, enable := false }, tg := { s.tg with v := 0, phaseOpen := false }
      hs := headHalted s.hs, pli := l } ∧ LineKeeps s.pli l := by
  have halts : ∃ u l, (if s.hs.state = .parked ∨ s.hs.state = .halted then
        immediateStop (s.withDp { s.dp with estop := true, enable := false })
        else enterHalted (immediateStop (s.withDp { s.dp with estop := true, enable := false }))) = u
      ∧ u = { s with
        dp := { s.dp with estop := true, enable := false }, tg := { s.tg with v := 0, phaseOpen := false }
        hs := headHalted s.hs, pli := l } ∧ LineKeeps s.pli l := by
    unfold headHalted
    split
    · exact ⟨_, s.pli, rfl, rfl, rfl⟩
    · obtain ⟨l, he, hl⟩ := enterHalted_eq (immediateStop (s.withDp { s.dp with estop := true, enable := false }))
      exact ⟨_, l, rfl, he, hl⟩
  obtain ⟨u, l, hu, he, hl⟩ := halts
  exact ⟨u, l, by rw [← hu]; rfl, he, hl⟩

theorem estopAsserted_eq (h : s.su.lineResetPending = false) : ∃ u l, estopAsserted s = estopCause u
    ∧ u = { s with
      dp := { s.dp with estop := true, enable := false }, tg := { s.tg with v := 0, phaseOpen := false }
      hs := headHalted s.hs, pli := l } ∧ LineKeeps s.pli l := by
  obtain ⟨u, l, made, he, hl⟩ := estopAsserted_halts s
  refine ⟨u, l, ?_, he, hl⟩
  have noReset : u.su.lineResetPending = false := by rw [he]; exact h
  rw [made]
  by_cases hx : u.px.state = .idle ∨ u.px.state = .stopped
  · rw [estopCause_of_resting hx, heldResetEffect_of_none noReset]
  · obtain ⟨e, x, hc⟩ := estopCause_closed noReset hx
    exact heldResetEffect_of_none (hc.calm.noReset noReset)

/-! ### A fault that the head finds itself (R115) -/

/-- With the head out of STIRRING there is no release test: the joints stay as they are. -/
theorem LeftStirring.eq_of_not_stirring {j : JointUnit} (h : LeftStirring s j) (hs : s.hs.state ≠ .stirring) : j = s.ju := by
  have none : ∀ e, ¬ Passed s e := not_passed_of_not_stirring hs
  have lead : j.currentLead = s.ju.currentLead := h.kept (fun ⟨e, _, hp⟩ => none e hp)
  have opens : j.openList = s.ju.openList := by
    refine List.ext_getElem? (fun i => ?_)
    cases hi : s.ju.openList[i]? with
    | none => rwa [List.getElem?_eq_none_iff, h.length, ← List.getElem?_eq_none_iff]
    | some e => exact h.others i e hi (none e)
  have awaited := h.awaited
  have closed := h.closedList
  cases j
  simp only at lead opens awaited closed
  rw [lead, opens, awaited, closed]

/-- `u` is the state `s` after the fault retract that a working head makes before it reports: head items `h` put in RETRACTING,
the joints left as R126 has them, travel governor `g` but for the travel phase; the listed flags may be set. -/
structure RetractReady (g : TravelGovernor) (h : HeadSequencer) (flags : List AttentionFlag) (s u : State) : Prop where
  travel : withdrawn u.tg = withdrawn g
  executor : u.px = s.px
  head : u.hs = faultHead h
  working : h.state.working = true
  joints : LeftStirring s u.ju
  freeCount : u.freeCount = s.freeCount
  flags : FlagsKeep flags s u

/-- R86, R90: a chain whose end must wait for the head, as the head's own fault leaves it. -/
theorem RetractReady.awaits {g : TravelGovernor} {h : HeadSequencer} {flags : List AttentionFlag} {x : PassExecutor}
    (b : RetractReady g h flags s u) (a : AwaitsHead x u t) :
    t.tg = withdrawn g ∧ t.freeCount = s.freeCount ∧ FlagsKeep flags s t ∧ LeftStirring s t.ju ∧ t.hs = faultHead h
      ∧ t.px = x := by
  have out : u.hs.state ≠ .stirring := by simp [b.head, faultHead]
  have resting : u.hs.state.working = false := by rw [b.head]; rfl
  refine ⟨a.travel.trans b.travel, a.freeCount.trans b.freeCount,
    ⟨fun f hf => (a.calm.flags f (by simp)).trans (b.flags.1 f hf), ?_⟩, ?_, ?_, a.executor⟩
  · rw [a.status]
    exact b.flags.2
  · rw [a.joints.eq_of_not_stirring out]
    exact b.joints
  · rw [a.head, resting]
    exact b.head

/-- R115: the outcome of a fault that the head finds itself is the one `CauseActs` states. -/
theorem RetractReady.causeActs {e : Decision} {d : Detail} {g : TravelGovernor} {h : HeadSequencer}
    {flags : List AttentionFlag} (b : RetractReady g h flags s u) (o : CauseOutcome e d u t) :
    CauseActs e d g h flags s t := by
  have working := b.working
  have unparked : h.state ≠ .parked := by
    intro hp
    rw [hp] at working
    cases working
  have hpx := b.executor
  have awaits : executorAwaits e u = executorAwaits e s := by rw [executorAwaits, executorAwaits, hpx]
  cases o with
  | atOnce a ha hh rest =>
    refine ⟨a.travel.trans b.travel, fun hp => absurd hp unparked, fun hs => ?_⟩
    rw [hpx] at ha hh
    have under : UnderRecord u := by
      rcases hs with ⟨hs, _⟩ | hs | hs
      · rw [UnderRecord, hpx]
        exact hs
      · exact absurd hs ha
      · exact absurd hs hh
    have parked := (rest under).2
    rw [b.head] at parked
    cases parked
  | slows a hu _ =>
    obtain ⟨travel, free, flagged, joints, head, executor⟩ := b.awaits a
    rw [awaits] at executor
    rw [UnderRecord, hpx] at hu
    refine ⟨travel, fun hp => absurd hp unparked, fun _ => ⟨free, flagged, joints, fun _ => head, ?_,
        fun _ => executor, ?_, ?_, ?_⟩⟩
    · intro hn
      rw [working] at hn
      cases hn
    · intro _ _ _ _
      exact executor
    · intro _ _ hw
      rcases hu with hu | ⟨hu, _⟩ <;> rw [hw] at hu <;> cases hu
    · intro hw
      rcases hu with hu | ⟨hu, _⟩ <;> rw [hw] at hu <;> cases hu
  | replaces a hw hd =>
    obtain ⟨travel, free, flagged, joints, head, executor⟩ := b.awaits a
    rw [awaits] at executor
    rw [hpx] at hw hd
    refine ⟨travel, fun hp => absurd hp unparked, fun _ => ⟨free, flagged, joints, fun _ => head, ?_,
        fun _ => executor, ?_, ?_, ?_⟩⟩
    · intro hn
      rw [working] at hn
      cases hn
    · intro _ _ _ _
      exact executor
    · intro x hx _ hn
      exact absurd (hd x hx) hn
    · intro hh
      rw [hw] at hh
      cases hh
  | files a hw =>
    obtain ⟨travel, free, flagged, joints, head, executor⟩ := b.awaits a
    rw [hpx] at hw executor
    refine ⟨travel, fun hp => absurd hp unparked, fun _ => ⟨free, flagged, joints, fun _ => head, ?_, ?_, ?_,
        fun _ _ _ _ => executor,
      fun _ => executor⟩⟩
    · intro hn
      rw [working] at hn
      cases hn
    · rintro (hx | hx) <;> rcases hw with hw | ⟨hw, _⟩ <;> rw [hx] at hw <;> cases hw
    · intro x hx ha hn
      rcases hw with hw | ⟨_, y, hy, hne⟩
      · rw [ha] at hw
        cases hw
      · cases hx.symm.trans hy
        exact absurd hn hne

/-- The head's own fault retract and the flag FAULT, before the executor hears of it (R115). -/
theorem faultRetract_ready (hw : s.hs.state.working = true) :
    RetractReady s.tg s.hs [.fault] s (raise .fault (faultRetract s)) ∧ (raise .fault (faultRetract s)).flag .fault = true
      ∧ Calm [.fault] s (raise .fault (faultRetract s)) := by
  obtain ⟨l, j, he, hl, hj⟩ := faultRetract_eq s hw
  obtain ⟨l', he', hl'⟩ := raise_eq .fault (faultRetract s)
  have flag : ∀ f, (raise .fault (faultRetract s)).flag f = (s.flag f || decide (f = .fault)) := by
    intro f
    rw [State.flag_raise, he]
    rfl
  have other : ∀ f : AttentionFlag, f ∉ [AttentionFlag.fault] → (raise .fault (faultRetract s)).flag f = s.flag f := by
    intro f hf
    rw [flag, decide_eq_false (by simpa using hf), Bool.or_false]
  rw [he] at he' hl'
  refine ⟨⟨?_, ?_, ?_, hw, ?_, ?_, other, ?_⟩, by simp [flag], ?_, other, ?_, ?_⟩
  · rw [he, he']
    rfl
  · rw [he, he']
  · rw [he, he']
  · rw [he, he']
    exact hj
  · rw [he, he']
  · rw [he, he']
  · rw [he, he']
    exact fun x hx => by cases x <;> simp_all [stopParts, Part.same]
  · rw [he, he']
  · rw [he, he']
    exact hl.trans hl'

/-- R82, R86: under a record that is not at rest a cause's end is awaited, whether a LINE RESET is pending or not. -/
theorem stoppingCause_slows {e : Decision} {d : Detail} (hu : UnderRecord s) (hm : 0 < s.tg.v ∨ s.hs.state ≠ .parked) :
    AwaitsHead (executorAwaits e s) s (stoppingCause e d s) := by
  have waits : stoppingCause e d s = awaitEnd e (faultRetract (withdrawTarget s)) := by
    rcases hu with hx | ⟨hx, hr⟩
    · simp only [stoppingCause, hx]
    · simp only [stoppingCause, hx, hr]
  rw [waits]
  exact awaitEnd_awaits hm

end Sys2Proof.Machine

namespace Sys2Proof.Machine

variable {s t u : State}

/-! ### The level inputs (R178, R179) -/

theorem estopReleased_exec (s : State) :
    exec .emergencyStopReleased s = .next { s with dp := { s.dp with estop := false } } := rfl

/-- R39, R88, R90, R118: an assertion of the emergency-stop line. -/
theorem estopAsserted_acts (hs : s.dp.estop = false) (h : s.su.lineResetPending = false) :
    ∃ u l, exec .emergencyStopAsserted s = .next (settle (estopCause u))
      ∧ u = { s with
        dp := { s.dp with estop := true, enable := false }, tg := { s.tg with v := 0, phaseOpen := false }
        hs := headHalted s.hs, pli := l } ∧ LineKeeps s.pli l := by
  obtain ⟨u, l, he, hu, hl⟩ := estopAsserted_eq h
  refine ⟨u, l, ?_, hu, hl⟩
  show Host.Outcome.next (if s.dp.estop then s else settle (estopAsserted s)) = _
  rw [hs, he]
  rfl

/-- Settles O44. -/
theorem levelInputs : Obligations.LevelInputs := by
  refine ⟨fun s hs hp => ?_, fun s hs => ?_, estopReleased_exec, fun s hc hx hw => ?_, fun s hq hcase => ?_, fun _ => rfl⟩
  · obtain ⟨u, l, hexec, hu, hl⟩ := estopAsserted_acts hs hp
    have noReset : u.su.lineResetPending = false := by rw [hu]; exact hp
    have hpx : u.px = s.px := by rw [hu]
    have place : u.tg.p = s.tg.p := by rw [hu]
    -- what every case leaves
    have common : ∃ b : Bool, (settle (estopCause u)).dp = u.dp ∧ (settle (estopCause u)).hs = u.hs
        ∧ (settle (estopCause u)).tg = (if b then withdrawn u.tg else u.tg) ∧ LineKeeps u.pli (settle (estopCause u)).pli := by
      by_cases hx : u.px.state = .idle ∨ u.px.state = .stopped
      · obtain ⟨l', he, hl'⟩ := settle_eq u
        rw [estopCause_of_resting hx, he]
        exact ⟨false, rfl, rfl, rfl, hl'⟩
      · obtain ⟨e, x, hc⟩ := estopCause_closed noReset hx
        have closed := hc.settle
        exact ⟨true, closed.calm.kept .dp (by simp [stopParts]), closed.head, closed.travel, closed.calm.line⟩
    obtain ⟨b, hdp, hhs, htg, hline⟩ := common
    have keeps : Keeps [.tg, .hs, .dp, .pli] s u := by
      rw [hu]
      exact fun x hx => by cases x <;> simp_all [Part.same]
    have travel : u.tg = { s.tg with v := 0, phaseOpen := false } := by rw [hu]
    have line : LineKeeps s.pli u.pli := by rw [hu]; exact hl
    refine ⟨_, hexec, ?_, ?_, ?_, ?_, line.trans hline, fun hh => ?_, fun h1 h2 => ?_, fun hx => ?_, fun hx => ?_,
      fun e p hx hd hpos hn1 hn2 hn3 => ?_⟩
    · rw [hdp, hu]
    · rw [htg, travel]
      cases b <;> rfl
    · rw [htg, travel]
      cases b <;> rfl
    · rw [htg, travel]
      cases b <;> rfl
    · rw [hhs, hu]
      exact if_pos hh
    · rw [hhs, hu]
      exact if_neg (by simp [h1, h2])
    · rw [← hpx] at hx
      obtain ⟨l', he, hl'⟩ := settle_eq u
      rw [estopCause_of_resting hx]
      refine ⟨keeps.then (settle_keeps u) (by rfl) (by rfl), ?_⟩
      rw [he]
      exact travel
    · have ends := estopCause_of_ends (s := u) (by rw [hpx]; exact hx)
      have closed := (closeStopping_closed (e := ⟨.estop, none⟩) rfl noReset).settle
      rw [ends]
      refine ⟨keeps.then closed.calm.kept (n := [.tg, .px, .hs, .ju, .dp, .su, .freeCount, .pli]) (by rfl) (by rfl),
        closed.station, ?_, ?_, ?_⟩
      · rw [closed.joints, hu]
      · rw [closed.travel, travel]
        rfl
      · obtain ⟨x, y, hx', he⟩ := closed.executor
        refine ⟨x, y, fun p hp' => hx' p (place.trans hp'), ?_⟩
        rw [he]
        simp only [executorAfter, hpx]
    · have stops : ¬ NormalEnd e := by simp [NormalEnd, hn1, hn2, hn3]
      have filed := estopCause_of_stopping (s := u) (by rw [hpx]; exact hx) (by rw [hpx]; exact hd) stops
      have closed := (closeStopping_filed .estop (Bool.eq_false_iff.mpr (mt (normal_iff e).mp stops)) noReset).settle
      rw [filed]
      refine ⟨closed.station, ?_, ?_⟩
      · rw [closed.joints, hu]
      · obtain ⟨x, y, hx', he⟩ := closed.executor
        cases hx' p (place.trans hpos)
        refine ⟨y, ?_⟩
        rw [he]
        simp only [executorAfter, hpx]
  · show Host.Outcome.next (if s.dp.estop then s else settle (estopAsserted s)) = _
    rw [hs]
    rfl
  · have hexec : exec .clampLineFalse s = .next (settle (headFault .clampLost (s.withDp { s.dp with clamp := false }))) := by
      show Host.Outcome.next (if s.dp.clamp then settle (clampOpens s) else s) = _
      rw [hc, if_pos rfl, clampOpens]
      rw [if_pos (show (s.withDp { s.dp with clamp := false }).hs.state.working = true from hw)]
    obtain ⟨ready, raised, calm⟩ := faultRetract_ready (s := s.withDp { s.dp with clamp := false }) hw
    have moving : (raise .fault (faultRetract (s.withDp { s.dp with clamp := false }))).hs.state ≠ .parked := by
      simp [ready.head, faultHead]
    have slows := stoppingCause_slows (e := ⟨.fault, some .clampLost⟩) (d := .clampLost)
      (s := raise .fault (faultRetract (s.withDp { s.dp with clamp := false })))
      (.inl (by rw [ready.executor]; exact hx)) (.inr moving)
    obtain ⟨travel, free, flagged, joints, head, executor⟩ := ready.awaits slows
    have total := calm.trans (slows.calm.mono (by simp))
    obtain ⟨l, he, hl⟩ := settle_eq (headFault .clampLost (s.withDp { s.dp with clamp := false }))
    rw [he] at hexec
    refine ⟨_, hexec, ?_, ?_, flagged, total.line.trans hl, { joints with }, ?_, travel, head, ?_⟩
    · have before : Keeps [.dp] s (s.withDp { s.dp with clamp := false }) := withDp_keeps s _
      have kept := before.then total.kept (n := [.freeCount, .tg, .px, .hs, .ju, .dp, .su, .pli]) (by rfl) (by rfl)
      have settled := kept.then (settle_keeps _) (n := [.freeCount, .tg, .px, .hs, .ju, .dp, .su, .pli]) (by rfl) (by rfl)
      rw [← he]
      exact settled.drop ((settle_keeps _ .freeCount (by simp)).trans free)
    · exact (slows.calm.flags .fault (by simp)).trans raised
    · exact total.kept .dp (by simp [stopParts])
    · refine executor.trans ?_
      rw [executorAwaits, executorAwaits, ready.executor]
      rfl
  · have opened : exec .clampLineFalse s = .next (if s.dp.clamp then settle (s.withDp { s.dp with clamp := false }) else s) := by
      show Host.Outcome.next (if s.dp.clamp then settle (clampOpens s) else s) = _
      by_cases hc : s.dp.clamp = true
      · have resting : (s.withDp { s.dp with clamp := false }).hs.state.working = false := by
          rcases hcase with h | h | h | h
          · rw [hc] at h
            cases h
          all_goals
            simp only [State.withDp_hs, h]
            rfl
        rw [hc, if_pos rfl, if_pos rfl, clampOpens]
        rw [if_neg (by rw [resting]; simp)]
      · rw [if_neg hc, if_neg hc]
    rw [opened, settle_of_quiet (s := s.withDp { s.dp with clamp := false }) hq]
    cases hc : s.dp.clamp with
    | true => rfl
    | false =>
      rw [if_neg (by simp), ← hc]

end Sys2Proof.Machine

namespace Sys2Proof.Machine

variable {s t u : State}

/-! ### The retract timeout (R113) -/

theorem retractTimeoutCause_of_resting (h : s.px.state = .idle ∨ s.px.state = .stopped) :
    retractTimeoutCause s = raise .fault s := by
  have px : (raise .fault s).px = s.px := raise_keeps .fault s .px (by decide)
  rcases h with h | h <;> simp only [retractTimeoutCause, px, h]

/-- R86, R90, R96: a chain that waits with a decided end closes at once, with the timeout after a normal end and with its own
stopping cause otherwise. -/
theorem retractTimeoutCause_of_decided {e : Decision} (h : s.px.state = .awaitHeadEnd ∨ s.px.state = .halting)
    (hd : s.px.decided = some e) :
    retractTimeoutCause s = if e.kind.normal then closeStopping ⟨.fault, some .retractTimeout⟩ (raise .fault s)
      else closeStopping e (fileSecondary .retractTimeout (raise .fault s)) := by
  have px : (raise .fault s).px = s.px := raise_keeps .fault s .px (by decide)
  rcases h with h | h <;> simp only [retractTimeoutCause, px, h, hd]

theorem retractTimeoutCause_closed (h : s.su.lineResetPending = false)
    (hx : ¬ (s.px.state = .idle ∨ s.px.state = .stopped)) :
    ∃ e x, Closed e x (raise .fault s) (retractTimeoutCause s) := by
  have noReset := (raise_calm .fault s).noReset h
  have px : (raise .fault s).px = s.px := raise_keeps .fault s .px (by decide)
  have own : Closed ⟨.fault, some .retractTimeout⟩ (raise .fault s).px.secondary (raise .fault s)
    (closeStopping ⟨.fault, some .retractTimeout⟩ (raise .fault s)) := closeStopping_closed rfl noReset
  simp only [not_or] at hx
  unfold retractTimeoutCause
  extract_lets v
  split
  · next hi => exact absurd (px ▸ hi) hx.1
  · next hs => exact absurd (px ▸ hs) hx.2
  · split
    · split
      · exact ⟨_, _, own⟩
      · next e _ hn => exact ⟨e, _, closeStopping_filed .retractTimeout (Bool.eq_false_iff.mpr hn) noReset⟩
    · exact ⟨_, _, own⟩

/-- The head after a retract that timed out: HALTED, the Z command ramped once more before (log 13). -/
def headTimedOut (rate : Nat) (h : HeadSequencer) : HeadSequencer :=
  { h with
    state := .halted, phase := 0, forceAge := oneOn h.forceAge, spindle := 0, trim := 0, retractPending := false, weld := none
    zCommand := if rate ≤ h.zCommand then h.zCommand - rate else 0 }

theorem sub_eq_ite (a b : Nat) : a - b = if b ≤ a then a - b else 0 := by
  split <;> omega

/-- R113: the timeout, up to the executor: the head HALTED, the enable off, v 0 at once. -/
theorem retractTimeout_eq (hs : s.hs.state = .retracting) (hd : s.constants.retractTimeout ≤ oneOn s.hs.phase) :
    ∃ u l, exec .retractTimeout s
        = .next (settle (startPendingRetract (heldResetEffect (retractTimeoutCause u))))
      ∧ u = { s with
        tg := { s.tg with v := 0, phaseOpen := false }, hs := headTimedOut s.constants.retractRate s.hs
        dp := { s.dp with enable := false }, pli := l } ∧ LineKeeps s.pli l := by
  have due : retractTimedOut (headCounts s) = true := by
    simp [retractTimedOut, headCounts, hs, countUp_eq_oneOn, hd]
  have ramped : headRamps (headCounts s) = (headCounts s).withHs
      { (headCounts s).hs with zCommand := s.hs.zCommand - s.constants.retractRate } := by
    simp [headRamps, headCounts, hs]
  have ramps : ∃ r, headRamps (headCounts s) = r ∧ r = s.withHs { s.hs with
      phase := oneOn s.hs.phase, forceAge := oneOn s.hs.forceAge, zCommand := s.hs.zCommand - s.constants.retractRate } := by
    refine ⟨_, rfl, ?_⟩
    rw [ramped]
    simp [headCounts, State.withHs, countUp_eq_oneOn]
  obtain ⟨r, hr, he⟩ := ramps
  have checked : phaseCheck (forceCheck r) = heldResetEffect (retractTimeoutCause (immediateStop (enterHalted r))) := by
    have force : forceCheck r = r := by simp [forceCheck, forceLostFound, he, hs, HeadState.pressing]
    rw [force]
    simp [phaseCheck, phaseTimeout, retractTimedOut, he, hs, hd, retractTimesOut]
  obtain ⟨l, hh, hl⟩ := enterHalted_eq r
  refine ⟨immediateStop (enterHalted r), l, ?_, ?_, ?_⟩
  · show Host.Outcome.next (if retractTimedOut (headCounts s) then settle (headExpiry false s) else s) = _
    rw [due, if_pos rfl, headExpiry]
    simp only [Bool.false_eq_true, if_false, hr, checked]
  · rw [hh, he]
    simp [immediateStop, State.withTg, State.withHs, headTimedOut, ← sub_eq_ite]
  · rw [he] at hl
    exact hl

theorem startPendingRetract_of_halted (h : s.hs.state = .halted) : startPendingRetract s = s := by
  simp [startPendingRetract, pendingRetractDue, h]

/-- Settles O37. -/
theorem retractTimeoutHalts : Obligations.RetractTimeoutHalts := by
  refine ⟨fun s hs hd hp => ?_, fun s h => ?_⟩
  · obtain ⟨u, l, hexec, hu, hl⟩ := retractTimeout_eq hs hd
    have noReset : u.su.lineResetPending = false := by rw [hu]; exact hp
    have hpx : u.px = s.px := by rw [hu]
    have place : u.tg.p = s.tg.p := by rw [hu]
    have travel : u.tg = { s.tg with v := 0, phaseOpen := false } := by rw [hu]
    have keeps : Keeps [.tg, .hs, .dp, .pli] s u := by
      rw [hu]
      exact fun x hx => by cases x <;> simp_all [Part.same]
    have line : LineKeeps s.pli u.pli := by rw [hu]; exact hl
    have raised := raise_calm .fault u
    have rkeeps := raise_keeps .fault u
    have calm : Calm [.fault, .jointVoided] u (retractTimeoutCause u) := by
      by_cases hx : u.px.state = .idle ∨ u.px.state = .stopped
      · rw [retractTimeoutCause_of_resting hx]
        exact raised.mono (by simp)
      · obtain ⟨e, x, hc⟩ := retractTimeoutCause_closed noReset hx
        exact (raised.mono (by simp)).trans (hc.calm.mono (by simp))
    have flagged : (retractTimeoutCause u).flag .fault = true := by
      have set : (raise .fault u).flag .fault = true := by simp [State.flag_raise]
      by_cases hx : u.px.state = .idle ∨ u.px.state = .stopped
      · rw [retractTimeoutCause_of_resting hx]
        exact set
      · obtain ⟨e, x, hc⟩ := retractTimeoutCause_closed noReset hx
        exact (hc.calm.flags .fault (by simp)).trans set
    have head : (retractTimeoutCause u).hs = u.hs := by
      have same : (raise .fault u).hs = u.hs := rkeeps .hs (by decide)
      by_cases hx : u.px.state = .idle ∨ u.px.state = .stopped
      · rw [retractTimeoutCause_of_resting hx]
        exact same
      · obtain ⟨e, x, hc⟩ := retractTimeoutCause_closed noReset hx
        exact hc.head.trans same
    rw [heldResetEffect_of_none (calm.noReset noReset), startPendingRetract_of_halted (by rw [head, hu]; rfl)] at hexec
    obtain ⟨l', he, hl'⟩ := settle_eq (retractTimeoutCause u)
    have settled := settle_keeps (retractTimeoutCause u)
    refine ⟨_, hexec, ?_, ?_, ?_, ?_, fun hx => ?_, fun e p hx he hpos => ?_⟩
    · rw [he]
      exact flagged
    · rw [he]
      exact (line.trans calm.line).trans hl'
    · rw [he]
      exact (calm.kept .dp (by simp [stopParts])).trans (by rw [hu])
    · rw [he]
      exact head.trans (by rw [hu]; rfl)
    · rw [← hpx] at hx
      have resting := retractTimeoutCause_of_resting hx
      have flags : FlagsKeep [.fault] s (retractTimeoutCause u) := by
        rw [resting]
        refine ⟨fun f hf => (raised.flags f hf).trans (by rw [hu]; rfl), ?_⟩
        obtain ⟨l'', hr, _⟩ := raise_eq .fault u
        rw [hr, hu]
      refine ⟨?_, ?_, ?_⟩
      · rw [resting] at settled ⊢
        exact (keeps.then rkeeps (n := [.tg, .hs, .dp, .su, .pli]) (by rfl) (by rfl)).then settled (by rfl) (by rfl)
      · rw [he]
        exact flags
      · rw [he]
        refine Eq.trans ?_ travel
        rw [resting]
        exact rkeeps .tg (by decide)
    · have rpx : (raise .fault u).px = s.px := (rkeeps .px (by decide)).trans hpx
      have rtg : (raise .fault u).tg = { s.tg with v := 0, phaseOpen := false } := (rkeeps .tg (by decide)).trans travel
      have rju : (raise .fault u).ju = s.ju := (rkeeps .ju (by decide)).trans (by rw [hu])
      have rfree : (raise .fault u).freeCount = s.freeCount := (rkeeps .freeCount (by decide)).trans (by rw [hu])
      have rplace : (raise .fault u).tg.p = some p := by rw [rtg]; exact hpos
      have rnoReset := raised.noReset noReset
      have decided := retractTimeoutCause_of_decided (s := u) (hpx ▸ hx) (hpx ▸ he)
      -- what a close leaves, whatever its end
      have closes (d : Decision) (x : Option Detail) (v : State) (hc : Closed d x (raise .fault u) v) :
          Keeps [.tg, .px, .hs, .ju, .dp, .su, .pli] s (settle v) ∧ (settle v).tg = { withdrawn s.tg with v := 0 }
          ∧ (settle v).su.station = .stopped ∧ (settle v).ju = afterClose d.kind s.ju
          ∧ ∃ y, (settle v).px = executorAfter .stopped d x p y s := by
        have hc := hc.settle
        refine ⟨?_, ?_, hc.station, hc.joints.trans (by rw [rju]), ?_⟩
        · have kept := (keeps.then rkeeps (n := [.tg, .hs, .dp, .su, .pli]) (by rfl) (by rfl)).then hc.calm.kept
            (n := [.freeCount, .tg, .px, .hs, .ju, .dp, .su, .pli]) (by rfl) (by rfl)
          exact kept.drop ((hc.freeCount p rplace).trans rfree)
        · rw [hc.travel, rtg]
          rfl
        · obtain ⟨y, z, hy, hz⟩ := hc.executor
          cases hy p rplace
          refine ⟨z, ?_⟩
          rw [hz]
          simp only [executorAfter, rpx]
      by_cases hn : NormalEnd e
      · rw [if_pos ((normal_iff e).mpr hn)] at decided
        have closed := closes _ _ _ (closeStopping_closed (e := ⟨.fault, some .retractTimeout⟩) rfl rnoReset)
        rw [rpx] at closed
        rw [decided]
        obtain ⟨h1, h2, h3, h4, h5⟩ := closed
        refine ⟨h1, h2, h3, fun _ => ⟨h4, h5⟩, fun n1 n2 n3 => ?_⟩
        rcases hn with h | h | h
        · exact absurd h n1
        · exact absurd h n2
        · exact absurd h n3
      · rw [if_neg (mt (normal_iff e).mp hn)] at decided
        have closed := closes _ _ _ (closeStopping_filed .retractTimeout
          (Bool.eq_false_iff.mpr (mt (normal_iff e).mp hn)) rnoReset)
        rw [rpx] at closed
        rw [decided]
        obtain ⟨h1, h2, h3, h4, h5⟩ := closed
        exact ⟨h1, h2, h3, fun h => absurd h hn, fun _ _ _ => ⟨h4, h5⟩⟩
  · have undue : retractTimedOut (headCounts s) = false := by
      rcases h with h | h
      · simp [retractTimedOut, headCounts, h]
      · simp [retractTimedOut, headCounts, countUp_eq_oneOn, h]
    show Host.Outcome.next (if retractTimedOut (headCounts s) then _ else _) = _
    rw [undue]
    rfl

end Sys2Proof.Machine

namespace Sys2Proof.Machine

variable {s t u : State} {m : Feedback}

/-! ### A feedback message without faults or completion (R174 to R177) -/

theorem min_eq_ite (a b : Nat) : min a b = if a ≤ b then a else b := by
  split <;> omega

/-- R106: a force taken leaves the head's phase, its parameters and its Z command. -/
theorem forceTaken_keeps (m : Feedback) (h : HeadSequencer) : (forceTaken m h).state = h.state
    ∧ (forceTaken m h).weld = h.weld ∧ (forceTaken m h).zCommand = h.zCommand := by
  unfold forceTaken
  split <;> exact ⟨rfl, rfl, rfl⟩

/-- With the enable on and p known a message changes the held values and the latest force alone (R21, R100). -/
theorem handOn_of_enabled (he : s.dp.enable = true) (hp : s.tg.p ≠ none) :
    handOn m s = { s with dp := feedbackHeld m s.dp, hs := forceTaken m s.hs } := by
  have held : holdFeedback m s = { s with dp := feedbackHeld m s.dp } := rfl
  have place : followPosition m { s with dp := feedbackHeld m s.dp } = { s with dp := feedbackHeld m s.dp } := by
    refine if_neg ?_
    rintro ⟨_, h | h⟩
    · exact absurd (he.symm.trans h) (by simp)
    · exact hp h
  have depth : followZ m { s with dp := feedbackHeld m s.dp } = { s with dp := feedbackHeld m s.dp } := if_pos he
  rw [handOn, held, place, depth]
  unfold takeForce forceTaken
  split <;> rfl

/-- With the enable off p and the Z command follow the message too. -/
theorem handOn_of_disabled (he : s.dp.enable = false) :
    handOn m s = { s with
      dp := feedbackHeld m s.dp
      tg := { s.tg with p := if m.position ≤ 33554431 then some m.position else s.tg.p }
      hs := { forceTaken m s.hs with zCommand := if m.z ≤ 12000 then m.z else 12000 } } := by
  have held : holdFeedback m s = { s with dp := feedbackHeld m s.dp } := rfl
  have place : followPosition m { s with dp := feedbackHeld m s.dp } = { s with
      dp := feedbackHeld m s.dp, tg := { s.tg with p := if m.position ≤ 33554431 then some m.position else s.tg.p } } := by
    have disabled : (feedbackHeld m s.dp).enable = false := he
    by_cases h : m.position ≤ 33554431
    · rw [if_pos h]
      exact if_pos ⟨h, .inl disabled⟩
    · rw [if_neg h]
      exact if_neg (fun hc => h hc.1)
  have depth (v : State) (hv : v.dp.enable = false) :
      followZ m v = v.withHs { v.hs with zCommand := if m.z ≤ 12000 then m.z else 12000 } := by
    rw [followZ, hv, if_neg (by simp), ← min_eq_ite]
    rfl
  rw [handOn, held, place]
  refine (congrArg (takeForce m) (depth _ ?_)).trans ?_
  · exact he
  unfold takeForce forceTaken
  split <;> rfl

/-- A message that ends no head phase of the state it has come to (R103, R104, R112). -/
theorem feedbackCompletes_of_nothing (found : State) (h : CompletesNothing m t) : feedbackCompletes m found t = t := by
  obtain ⟨spin, plunge, retract⟩ := h
  unfold feedbackCompletes
  split
  · rfl
  · have noSpin : spinUpEnds m t = false := by
      by_contra hc
      simp only [spinUpEnds, Bool.not_eq_false, Bool.and_eq_true, beq_iff_eq] at hc
      rw [spin hc.1] at hc
      exact absurd hc.2 (by simp)
    have noRetract : retractEnds m t = false := by
      by_contra hc
      simp only [retractEnds, Bool.not_eq_false, Bool.and_eq_true, beq_iff_eq, decide_eq_true_eq] at hc
      rcases retract hc.1.1 with hz | hz
      · exact hz hc.1.2
      · rw [hz] at hc
        exact absurd hc.2 (by simp)
    rw [noSpin, noRetract]
    simp only [Bool.false_eq_true, if_false]
    split
    · next w hw =>
      refine if_neg (fun hc => ?_)
      simp only [plungeEnds, Bool.and_eq_true, beq_iff_eq, decide_eq_true_eq] at hc
      rcases plunge hc.1.1 w hw with hz | hz
      · exact hz hc.1.2
      · have reached : w.depth ≤ m.z + 20 := hc.2
        omega
    · rfl

/-- The head has been moved by a fault of the message, or is as the message left it: no phase ends (R103, R104, R112). -/
theorem feedbackCompletes_after_fault (h : CompletesNothing m s)
    (ht : t.hs = (if s.hs.state.working then faultHead (forceTaken m s.hs) else forceTaken m s.hs)
      ∨ t.hs = forceTaken m s.hs) : feedbackCompletes m s t = t := by
  obtain ⟨state, weld, depth⟩ := forceTaken_keeps m s.hs
  have kept (hk : t.hs = forceTaken m s.hs) : feedbackCompletes m s t = t := by
    refine feedbackCompletes_of_nothing s ?_
    simp only [CompletesNothing, hk, state, weld, depth]
    exact h
  rcases ht with ht | ht
  · by_cases hw : s.hs.state.working = true
    · rw [if_pos hw] at ht
      unfold feedbackCompletes
      refine if_pos ?_
      rw [ht]
      intro hr
      rw [← show HeadState.retracting = s.hs.state from hr] at hw
      cases hw
    · rw [if_neg hw] at ht
      exact kept ht
  · exact kept ht

theorem driveFault_of_accepted {found : State} (h : found.su.station ≠ .running ∨ found.dp.driveReported = true) (t : State) :
    driveFault found t = t := by
  refine if_neg ?_
  rintro ⟨hr, hd, _⟩
  rcases h with h | h
  · exact h hr
  · rw [h] at hd
    cases hd

/-- R177: a message that brings no DRIVE_REPORTED by its position or its fault code. -/
theorem driveAccepted_cases {found : State} (h : found.su.station ≠ .running ∨ DriveAccepted m found) :
    (found.su.station ≠ .running ∨ found.dp.driveReported = true) ∨ (m.faultCode = 0 ∧ m.position ≤ Config.railTop) := by
  rcases h with h | h
  · exact .inl (.inl h)
  · by_cases hd : found.dp.driveReported = true
    · exact .inl (.inr hd)
    · exact .inr (h (eq_false_of_ne_true hd))

theorem codeFault_of_accepted {found : State} (h : found.su.station ≠ .running ∨ DriveAccepted m found) (t : State) :
    codeFault m found t = t := by
  unfold codeFault
  split
  · rfl
  · next hc =>
    rcases driveAccepted_cases h with h | h
    · exact driveFault_of_accepted h t
    · exact absurd h.1 hc

theorem overloads_iff (m : Feedback) (s : State) : overloads m s = true ↔ ¬ ForceAccepted m s := by
  have pressing : s.hs.state.pressing = true ↔ s.hs.state = .plunging ∨ s.hs.state = .dwelling ∨ s.hs.state = .stirring := by
    cases s.hs.state <;> simp [HeadState.pressing]
  simp only [overloads, Bool.and_eq_true, decide_eq_true_eq, pressing, ForceAccepted]
  constructor
  · rintro ⟨⟨hv, hp⟩, hf⟩ h
    exact absurd (h hp hv) (Nat.not_le.mpr hf)
  · intro h
    simp only [not_forall] at h
    obtain ⟨hp, hv, hf⟩ := h
    exact ⟨⟨hv, hp⟩, Nat.lt_of_not_le hf⟩

theorem overloadFault_of_accepted {found : State} (h : ForceAccepted m found) (t : State) : overloadFault m found t = t :=
  if_neg (fun ho => (overloads_iff m found).mp ho h)

theorem overloadFault_of_above {found : State} (h : ¬ ForceAccepted m found) (t : State) :
    overloadFault m found t = headFault .overload t := if_pos ((overloads_iff m found).mpr h)

theorem positionFault_of_accepted {found : State} (h : found.su.station ≠ .running ∨ DriveAccepted m found)
    (hf : m.position ≤ Config.railTop → followingLost m found = false) (t : State) : positionFault m found t = t := by
  unfold positionFault
  split
  · next hp =>
    rcases driveAccepted_cases h with h | h
    · exact driveFault_of_accepted h t
    · exact absurd h.2 (Nat.not_le.mpr hp)
  · next hp => rw [hf (Nat.le_of_not_lt hp), if_neg (by simp)]

theorem followingLost_of_accepted (h : FollowAccepted m s) (hp : m.position ≤ Config.railTop) : followingLost m s = false := by
  by_contra hc
  simp only [followingLost, Bool.not_eq_false, Bool.and_eq_true, beq_iff_eq, Bool.not_eq_true', Option.any_eq_true,
    decide_eq_true_eq] at hc
  obtain ⟨⟨_, hf⟩, p, hpos, hd⟩ := hc
  exact absurd (h hp hf p hpos) (Nat.not_le.mpr hd)

/-- A message without faults. -/
theorem feedbackFaults_of_accepted {found : State} (hd : found.su.station ≠ .running ∨ DriveAccepted m found)
    (hf : m.position ≤ Config.railTop → followingLost m found = false) (ho : ForceAccepted m found) (t : State) :
    feedbackFaults m found t = t := by
  rw [feedbackFaults, positionFault_of_accepted hd hf, overloadFault_of_accepted ho, codeFault_of_accepted hd]

theorem takeFeedback_of_slot (h : s.dp.slot = some m) :
    takeFeedback false s = feedbackCompletes m s (feedbackFaults m s (handOn m s)) := by
  simp [takeFeedback, h, completesFirst]

/-- Settles O42. -/
theorem feedbackTakenHolds : Obligations.FeedbackTakenHolds := by
  refine ⟨fun s m hm hq hforce => ⟨fun he hnp hnr hc hd => ?_, fun he hp hc hd => ?_⟩, fun s hm hq => ?_⟩
  · have faults : feedbackFaults m s (handOn m s) = handOn m s := by
      refine feedbackFaults_of_accepted hd (fun _ => ?_) hforce _
      simp [followingLost, he]
    have state : (handOn m s).hs.state = s.hs.state := by
      rw [handOn_of_disabled he]
      exact (forceTaken_keeps m s.hs).1
    have nothing : feedbackCompletes m s (handOn m s) = handOn m s := by
      refine feedbackCompletes_of_nothing s ⟨fun h => hc.1 (state ▸ h), fun h => absurd (state ▸ h) hnp,
        fun h => absurd (state ▸ h) hnr⟩
    show Host.Outcome.next (settle (takeFeedback false s)) = _
    rw [takeFeedback_of_slot hm, faults, nothing, handOn_of_disabled he]
    exact congrArg Host.Outcome.next (settle_of_quiet hq)
  · have faults : feedbackFaults m s (handOn m s) = handOn m s := by
      refine feedbackFaults_of_accepted (hd.imp_right (·.2)) (fun hpos => ?_) hforce _
      rcases hd with hd | hd
      · simp [followingLost, hd]
      · exact followingLost_of_accepted hd.1 hpos
    have nothing : feedbackCompletes m s (handOn m s) = handOn m s :=
      feedbackCompletes_after_fault hc (.inr (by rw [handOn_of_enabled he hp]))
    show Host.Outcome.next (settle (takeFeedback false s)) = _
    rw [takeFeedback_of_slot hm, faults, nothing, handOn_of_enabled he hp]
    exact congrArg Host.Outcome.next (settle_of_quiet hq)
  · show Host.Outcome.next (settle (takeFeedback false s)) = _
    rw [show takeFeedback false s = s by simp [takeFeedback, hm], settle_of_quiet hq]

end Sys2Proof.Machine

namespace Sys2Proof.Machine

variable {s t u : State} {m : Feedback}

/-! ### A feedback message that is a fault (R40, R109, R177) -/

theorem CauseReady.raise {g : TravelGovernor} (b : CauseReady g [] s u) (f : AttentionFlag) :
    CauseReady g [f] s (raise f u) := by
  obtain ⟨l, he, _⟩ := raise_eq f u
  have calm := raise_calm f u
  refine ⟨?_, ?_, ?_, ?_, ?_, ?_, ?_, fun x hx => (calm.flags x hx).trans (b.flags.1 x (by simp)), ?_⟩ <;> rw [he]
  · exact b.travel
  · exact b.position
  · exact b.direction
  · exact b.executor
  · exact b.head
  · exact b.joints
  · exact b.freeCount
  · exact b.flags.2

/-- The release test looks at the head's state, the joints, p and the direction. -/
theorem LeftStirring.congr {j : JointUnit} (h : LeftStirring s j) (hs : t.hs.state = s.hs.state) (hj : t.ju = s.ju)
    (hp : t.tg.p = s.tg.p) (hd : t.tg.dir = s.tg.dir) : LeftStirring t j := by
  have passed : ∀ e, Passed s e ↔ Passed t e := fun e => by simp only [Passed, hs, hj, hp, hd]
  obtain ⟨h1, h2, h3, h4, h5, h6, h7⟩ := h
  simp only [passed, ← hj] at h1 h2 h3 h4 h5 h6 h7
  exact ⟨h1, h2, h3, h4, h5, h6, h7⟩

/-- The states a message's fault is found in: its values held, its force taken. -/
def messageHeld (m : Feedback) (x : DrivePort) (g : TravelGovernor) (s : State) : State :=
  { s with dp := x, hs := forceTaken m s.hs, tg := g }

theorem messageHeld_keeps (x : DrivePort) (g : TravelGovernor) (s : State) :
    Keeps [.tg, .hs, .dp] s (messageHeld m x g s) := by
  intro y hy
  cases y <;> simp_all [Part.same, messageHeld]

/-- A cause that acts on the state in which the message is held acts on that in which it came. -/
theorem CauseActs.of_messageHeld {e : Decision} {d : Detail} {x : DrivePort} {g k : TravelGovernor} {h : HeadSequencer}
    {flags : List AttentionFlag} (c : CauseActs e d k h flags (messageHeld m x g s) t) (hp : g.p = s.tg.p)
    (hd : g.dir = s.tg.dir) : CauseActs e d k h flags s t := by
  obtain ⟨travel, atOnce, waits⟩ := c
  refine ⟨travel, fun hh hx => ?_, fun hw => ?_⟩
  · obtain ⟨head, station, joints, flagged, y, z, hy, executor⟩ := atOnce hh hx
    exact ⟨head, station, joints, flagged, y, z, fun p hpos => hy p (hp.trans hpos), executor⟩
  · obtain ⟨free, flagged, joints, rest⟩ := waits hw
    exact ⟨free, flagged, joints.congr (forceTaken_keeps m s.hs).1.symm rfl hp.symm hd.symm, rest⟩

/-- What a fault of the message `m` leaves, with code `d`: the Drive Port `x`, the Travel Governor `g` before its target is
withdrawn. -/
structure FaultLeaves (d : Detail) (x : DrivePort) (g : TravelGovernor) (m : Feedback) (s t : State) : Prop where
  kept : Keeps [.tg, .px, .hs, .ju, .dp, .su, .freeCount, .pli] s t
  flag : t.flag .fault = true
  line : LineKeeps s.pli t.pli
  port : t.dp = x
  acts : CauseActs ⟨.fault, some d⟩ d g (forceTaken m s.hs) [.fault] s t
  head : t.hs = (if s.hs.state.working then faultHead (forceTaken m s.hs) else forceTaken m s.hs)
    ∨ t.hs = forceTaken m s.hs

theorem FaultLeaves.settle {d : Detail} {x : DrivePort} {g : TravelGovernor} (h : FaultLeaves d x g m s t) :
    FaultLeaves d x g m s (settle t) := by
  have kept := h.kept.then (settle_keeps t) (n := [.tg, .px, .hs, .ju, .dp, .su, .freeCount, .pli]) (by rfl) (by rfl)
  obtain ⟨l, he, hl⟩ := settle_eq t
  rw [he] at kept ⊢
  exact ⟨kept, h.flag, h.line.trans hl, h.port, h.acts, h.head⟩

theorem CauseOutcome.head {e : Decision} {d : Detail} (o : CauseOutcome e d s t) :
    t.hs = (if s.hs.state.working then faultHead s.hs else s.hs) ∨ t.hs = s.hs := by
  cases o with
  | atOnce a => exact .inr a.head
  | slows a => exact .inl a.head
  | replaces a => exact .inl a.head
  | files a => exact .inl a.head

/-- R80, R82, R86: a fault of the message that is not the head's own reaches the executor. -/
theorem faultCause_leaves (d : Detail) {x : DrivePort} {g : TravelGovernor} (hp : g.p = s.tg.p) (hd : g.dir = s.tg.dir)
    (h : s.su.lineResetPending = false) (hi : s.px.state ≠ .idle) (hs : s.px.state ≠ .stopped) :
    FaultLeaves d x g m s (faultCause d (messageHeld m x g s)) := by
  have state := (forceTaken_keeps m s.hs).1
  have ready : CauseReady g [] (messageHeld m x g s) (messageHeld m x g s) :=
    ⟨rfl, rfl, rfl, rfl, rfl, rfl, rfl, fun _ _ => rfl, rfl⟩
  have raised := ready.raise .fault
  have rcalm := raise_calm .fault (messageHeld m x g s)
  have outcome : CauseOutcome ⟨.fault, some d⟩ d (raise .fault (messageHeld m x g s)) (faultCause d (messageHeld m x g s)) :=
    stoppingCause_outcome rfl (rcalm.noReset h) (by rw [raised.executor]; exact hi) (by rw [raised.executor]; exact hs)
  have calm : Calm [.fault, .jointVoided] (messageHeld m x g s) (faultCause d (messageHeld m x g s)) :=
    (rcalm.mono (by simp)).trans (outcome.calm.mono (by simp))
  have flag : (raise .fault (messageHeld m x g s)).flag .fault = true := by simp [State.flag_raise]
  refine ⟨(messageHeld_keeps x g s).then calm.kept (by rfl) (by rfl),
      (outcome.calm.flags .fault (by simp)).trans flag, calm.line,
    calm.kept .dp (by simp [stopParts]), (outcome.causeActs raised).of_messageHeld hp hd, ?_⟩
  have head := outcome.head
  rw [raised.head, show (messageHeld m x g s).hs = forceTaken m s.hs from rfl, state] at head
  exact head

/-- R109, R115: a fault of the message that the head finds itself, in a head that is at work. -/
theorem headFault_leaves (d : Detail) {x : DrivePort} {g : TravelGovernor} (hp : g.p = s.tg.p) (hd : g.dir = s.tg.dir)
    (h : s.su.lineResetPending = false) (hi : s.px.state ≠ .idle) (hs : s.px.state ≠ .stopped)
    (hw : s.hs.state.working = true) : FaultLeaves d x g m s (headFault d (messageHeld m x g s)) := by
  have state := (forceTaken_keeps m s.hs).1
  have working : (messageHeld m x g s).hs.state.working = true := by
    rw [show (messageHeld m x g s).hs.state = s.hs.state from state]
    exact hw
  obtain ⟨ready, flag, rcalm⟩ := faultRetract_ready working
  have outcome : CauseOutcome ⟨.fault, some d⟩ d (raise .fault (faultRetract (messageHeld m x g s)))
      (headFault d (messageHeld m x g s)) :=
    stoppingCause_outcome rfl (rcalm.noReset h) (by rw [ready.executor]; exact hi) (by rw [ready.executor]; exact hs)
  have calm : Calm [.fault, .jointVoided] (messageHeld m x g s) (headFault d (messageHeld m x g s)) :=
    (rcalm.mono (by simp)).trans (outcome.calm.mono (by simp))
  refine ⟨(messageHeld_keeps x g s).then calm.kept (by rfl) (by rfl),
      (outcome.calm.flags .fault (by simp)).trans flag, calm.line,
    calm.kept .dp (by simp [stopParts]), (ready.causeActs outcome).of_messageHeld hp hd, .inl ?_⟩
  have head := outcome.head
  rw [ready.head, show (faultHead (messageHeld m x g s).hs).state.working = false from rfl] at head
  rw [if_pos hw]
  rcases head with head | head
  · exact head
  · exact head

/-- R174: the faults of a message end no head phase. -/
theorem takeFeedback_of_fault {d : Detail} {x : DrivePort} {g : TravelGovernor} (hm : s.dp.slot = some m)
    (hc : CompletesNothing m s) (ht : feedbackFaults m s (handOn m s) = t) (h : FaultLeaves d x g m s t) :
    takeFeedback false s = t := by
  rw [takeFeedback_of_slot hm, ht]
  exact feedbackCompletes_after_fault hc h.head

/-- R40: the position differs from p by more than the following limit. -/
theorem followingLost_of_beyond {p : Nat} (hr : s.su.station = .running) (he : s.dp.enable = true) (hp : s.tg.p = some p)
    (hf : s.tg.followReported = false) (hd : s.constants.followLimit < distance p m.position) : followingLost m s = true := by
  simp [followingLost, hr, he, hp, hf, hd]

theorem positionFault_following {p : Nat} (hr : s.su.station = .running) (he : s.dp.enable = true) (hp : s.tg.p = some p)
    (hf : s.tg.followReported = false) (hpos : m.position ≤ 33554431)
    (hd : s.constants.followLimit < distance p m.position) (t : State) :
    positionFault m s t = faultCause .following (t.withTg { t.tg with followReported := true }) := by
  rw [positionFault, if_neg (show ¬ Config.railTop < m.position from Nat.not_lt.mpr hpos),
      followingLost_of_beyond hr he hp hf hd, if_pos rfl]

theorem driveFault_of_first (hr : s.su.station = .running) (hf : s.dp.driveReported = false) (ht : t.dp.driveReported = false) :
    driveFault s t = faultCause .driveReported (t.withDp { t.dp with driveReported := true }) :=
  if_pos ⟨hr, hf, ht⟩

/-- R109: an OVERLOAD finds the head at work. -/
theorem working_of_overload (h : ¬ ForceAccepted m s) : s.hs.state.working = true := by
  simp only [ForceAccepted, not_forall] at h
  obtain ⟨hp, _⟩ := h
  rcases hp with hp | hp | hp <;> rw [hp] <;> rfl

/-- R90: with a stopping cause decided a later one is filed. -/
theorem stoppingCause_files {e x : Decision} {d : Detail} (hx : s.px.state = .awaitHeadEnd) (hd : s.px.decided = some x)
    (hn : ¬ NormalEnd x) :
    AwaitsHead { s.px with secondary := some (s.px.secondary.getD d) } s (stoppingCause e d s) := by
  have ha := retract_awaits s
  have decided : stoppingDecided (faultRetract (withdrawTarget s)) = true := by
    rw [stoppingDecided_iff, ha.executor]
    exact ⟨x, hd, hn⟩
  have files : stoppingCause e d s = fileSecondary d (faultRetract (withdrawTarget s)) := by
    simp only [stoppingCause, hx, decided, if_true]
  rw [files, fileSecondary_eq, ha.executor]
  exact ha.withPx

/-- R90: a message that is both FOLLOWING and OVERLOAD under an ACTIVE record: the first ends it, the second is filed
(log 12). -/
theorem following_then_overload {x : DrivePort} {g : TravelGovernor} (hp : g.p = s.tg.p) (hd : g.dir = s.tg.dir)
    (ha : s.px.state = .active) (hw : s.hs.state.working = true)
    (ht : t = headFault .overload (faultCause .following (messageHeld m x g s))) :
    Keeps [.tg, .px, .hs, .ju, .dp, .su, .pli] s t ∧ t.flag .fault = true ∧ FlagsKeep [.fault] s t ∧ LineKeeps s.pli t.pli
      ∧ LeftStirring s t.ju ∧ t.dp = x ∧ t.tg = withdrawn g ∧ t.hs = faultHead (forceTaken m s.hs)
      ∧ t.px = { executorAwaits ⟨.fault, some .following⟩ s with secondary := some (s.px.secondary.getD .overload) } := by
  obtain ⟨u, hu⟩ : ∃ u, u = messageHeld m x g s := ⟨_, rfl⟩
  have state : u.hs.state = s.hs.state := by
    rw [hu]
    exact (forceTaken_keeps m s.hs).1
  have ready : CauseReady g [.fault] u (raise .fault u) := by
    refine CauseReady.raise ⟨?_, rfl, rfl, rfl, rfl, rfl, rfl, fun _ _ => rfl, rfl⟩ .fault
    rw [hu]
    rfl
  have hpx : u.px = s.px := by rw [hu]; rfl
  have working : (raise .fault u).hs.state.working = true := by rw [ready.head, state, hw]
  have unparked : (raise .fault u).hs.state ≠ .parked := by
    intro hh
    rw [hh] at working
    cases working
  have first : AwaitsHead (executorAwaits ⟨.fault,
      some .following⟩ (raise .fault u)) (raise .fault u) (faultCause .following u) :=
    stoppingCause_slows (.inl (by rw [ready.executor, hpx]; exact ha)) (.inr unparked)
  have retracts : (faultCause .following u).hs = faultHead (forceTaken m s.hs) := by
    rw [first.head, working, if_pos rfl, ready.head, hu]
    rfl
  have resting : (faultCause .following u).hs.state.working = false := by rw [retracts]; rfl
  have later : t = stoppingCause ⟨.fault, some .overload⟩ .overload (raise .fault (faultCause .following u)) := by
    rw [ht, ← hu, headFault, faultRetract_of_not_working _ resting, faultCause]
  have ready' : CauseReady (faultCause .following u).tg [.fault] (faultCause .following u)
      (raise .fault (faultCause .following u)) :=
    CauseReady.raise ⟨rfl, rfl, rfl, rfl, rfl, rfl, rfl, fun _ _ => rfl, rfl⟩ .fault
  have second : AwaitsHead { (raise .fault (faultCause .following u)).px with
      secondary := some ((raise .fault (faultCause .following u)).px.secondary.getD .overload) }
      (raise .fault (faultCause .following u)) t := by
    rw [later]
    refine stoppingCause_files (x := ⟨.fault, some .following⟩) ?_ ?_ (by simp [NormalEnd])
    · rw [ready'.executor, first.executor]
      rfl
    · rw [ready'.executor, first.executor]
      rfl
  have rcalm := raise_calm .fault u
  have rcalm' := raise_calm .fault (faultCause .following u)
  have calm : Calm [.fault] u t :=
    ((rcalm.trans (first.calm.mono (by simp))).trans rcalm').trans (second.calm.mono (by simp))
  have still : (raise .fault (faultCause .following u)).hs.state ≠ .stirring := by
    rw [ready'.head, retracts]
    simp [faultHead]
  have keeps : Keeps [.tg, .hs, .dp] s u := hu ▸ messageHeld_keeps x g s
  refine ⟨?_, ?_, ?_, ?_, ?_, ?_, ?_, ?_, ?_⟩
  · have kept := keeps.then calm.kept (n := [.freeCount, .tg, .px, .hs, .ju, .dp, .su, .pli]) (by rfl) (by rfl)
    refine kept.drop ?_
    refine (second.freeCount.trans ready'.freeCount).trans ((first.freeCount.trans ready.freeCount).trans ?_)
    rw [hu]
    rfl
  · exact (second.calm.flags .fault (by simp)).trans (by simp [State.flag_raise])
  · refine ⟨fun f hf => (calm.flags f hf).trans (by rw [hu]; rfl), ?_⟩
    obtain ⟨l, he, _⟩ := raise_eq .fault (faultCause .following u)
    obtain ⟨l', he', _⟩ := raise_eq .fault u
    rw [second.status, he, first.status, he', hu]
    rfl
  · have line := calm.line
    rw [hu] at line
    exact line
  · rw [second.joints.eq_of_not_stirring still, ready'.joints]
    refine (ready.leftStirring first.joints).congr state.symm ?_ ?_ ?_ <;> rw [hu]
    · rfl
    · exact hp.symm
    · exact hd.symm
  · refine (calm.kept .dp (by simp [stopParts])).trans ?_
    rw [hu]
    rfl
  · rw [second.travel, ready'.travel, first.travel, ready.travel]
    rfl
  · rw [second.head, ready'.head, resting, retracts]
    rfl
  · rw [second.executor, ready'.executor, first.executor, executorAwaits, ready.executor, hpx]
    rfl

/-- Settles O43. -/
theorem feedbackFaultsStop : Obligations.FeedbackFaultsStop := by
  intro s m p hm hr hi hs he hp hc hreset
  have known : s.tg.p ≠ none := by simp [hp]
  have held : handOn m s = messageHeld m (feedbackHeld m s.dp) s.tg s := handOn_of_enabled he known
  have drive : ∀ h : DriveAccepted m s, s.su.station ≠ .running ∨ DriveAccepted m s := fun h => .inr h
  have taken : exec .feedbackTaken s = .next (settle (takeFeedback false s)) := rfl
  refine ⟨_, taken, fun hf hpos hd hforce hdrive => ?_, fun hforce hfollow hdrive => ?_, fun hf hcase hfollow hforce => ?_,
    fun hf hpos hd hforce hdrive ha => ?_⟩
  · have faults : feedbackFaults m s (handOn m s)
        = faultCause .following (messageHeld m (feedbackHeld m s.dp) { s.tg with followReported := true } s) := by
      rw [feedbackFaults, positionFault_following hr he hp hf hpos hd, overloadFault_of_accepted hforce,
        codeFault_of_accepted (drive hdrive), held]
      rfl
    have leaves := faultCause_leaves (m := m) .following (x := feedbackHeld m s.dp)
      (g := { s.tg with followReported := true }) rfl rfl hreset hi hs
    rw [takeFeedback_of_fault hm hc faults leaves]
    have final := leaves.settle
    exact ⟨final.kept, final.flag, final.line, final.port, final.acts⟩
  · have faults : feedbackFaults m s (handOn m s) = headFault .overload (messageHeld m (feedbackHeld m s.dp) s.tg s) := by
      rw [feedbackFaults, positionFault_of_accepted (drive hdrive) (followingLost_of_accepted hfollow),
        overloadFault_of_above hforce, codeFault_of_accepted (drive hdrive), held]
    have leaves := headFault_leaves (m := m) .overload (x := feedbackHeld m s.dp) (g := s.tg) rfl rfl hreset hi hs
      (working_of_overload hforce)
    rw [takeFeedback_of_fault hm hc faults leaves]
    have final := leaves.settle
    exact ⟨final.kept, final.flag, final.line, final.port, final.acts⟩
  · have leaves := faultCause_leaves (m := m) .driveReported (x := { feedbackHeld m s.dp with driveReported := true })
      (g := s.tg) rfl rfl hreset hi hs
    have first : driveFault s (handOn m s)
        = faultCause .driveReported (messageHeld m { feedbackHeld m s.dp with driveReported := true } s.tg s) := by
      rw [held]
      exact driveFault_of_first hr hf hf
    have faults : feedbackFaults m s (handOn m s)
        = faultCause .driveReported (messageHeld m { feedbackHeld m s.dp with driveReported := true } s.tg s) := by
      rw [feedbackFaults, overloadFault_of_accepted hforce]
      by_cases hpos : Config.railTop < m.position
      · rw [positionFault, if_pos hpos, first, codeFault]
        split
        · rfl
        · refine if_neg (fun h => ?_)
          have reported := h.2.2
          rw [leaves.port] at reported
          cases reported
      · have inRange : m.position ≤ Config.railTop := Nat.le_of_not_lt hpos
        have code : m.faultCode ≠ 0 := hcase.resolve_right hpos
        rw [positionFault, if_neg hpos, followingLost_of_accepted hfollow inRange, if_neg (by simp), codeFault,
            if_neg code, first]
    rw [takeFeedback_of_fault hm hc faults leaves]
    have final := leaves.settle
    exact ⟨final.kept, final.flag, final.line, final.port, final.acts⟩
  · have faults : feedbackFaults m s (handOn m s) = headFault .overload (faultCause .following
        (messageHeld m (feedbackHeld m s.dp) { s.tg with followReported := true } s)) := by
      rw [feedbackFaults, positionFault_following hr he hp hf hpos hd, overloadFault_of_above hforce,
        codeFault_of_accepted (drive hdrive), held]
      rfl
    have working := working_of_overload hforce
    obtain ⟨kept, flag, flagged, line, joints, port, travel, head, executor⟩ :=
      following_then_overload (x := feedbackHeld m s.dp) (g := { s.tg with followReported := true }) rfl rfl ha working faults
    have ends : takeFeedback false s = feedbackFaults m s (handOn m s) := by
      rw [takeFeedback_of_slot hm]
      exact feedbackCompletes_after_fault hc (.inl (by rw [if_pos working]; exact head))
    rw [ends]
    obtain ⟨l, hset, hl⟩ := settle_eq (feedbackFaults m s (handOn m s))
    have kept' := kept.then (settle_keeps _) (n := [.tg, .px, .hs, .ju, .dp, .su, .pli]) (by rfl) (by rfl)
    rw [hset] at kept' ⊢
    exact ⟨kept', flag, flagged, line.trans hl, joints, port, travel, head, executor⟩

end Sys2Proof.Machine

namespace Sys2Proof.Machine

variable {s t u : State}

@[simp] theorem receptionEnds_su (s : State) : (receptionEnds s).su = s.su := rfl
@[simp] theorem receptionEnds_dp (s : State) : (receptionEnds s).dp = s.dp := rfl
@[simp] theorem receptionEnds_hs (s : State) : (receptionEnds s).hs = s.hs := rfl
@[simp] theorem receptionEnds_px (s : State) : (receptionEnds s).px = s.px := rfl

/-! ### JOB CLEAR (R166) -/

/-- The head as a JOB CLEAR leaves it (R123). -/
def headJobCleared (h : HeadSequencer) : HeadSequencer :=
  { h with trim := 0, weld := none, retractPending := false }

/-- R45, R123, R140, R181. -/
theorem jobCleared_eq (s : State) : ∃ l, jobCleared s = { s with
    ju := {}, tg := travelCleared s.tg, hs := headJobCleared s.hs
    dp := { s.dp with lostReported := false, driveReported := false }, pli := l } ∧ LineKeeps s.pli l := by
  obtain ⟨l, he, hl⟩ := setJoints_eq {} s
  refine ⟨l, ?_, hl⟩
  unfold jobCleared emptyJoints
  rw [he]
  rfl

/-- R120, R173: a retract from HALTED begins, with no release test. -/
theorem beginRetractFromHalted_eq (hs : s.hs.state ≠ .stirring) : ∃ l, beginRetractFromHalted s = { s with
    hs := { s.hs with state := .retracting, phase := 0, spindle := 0, trim := 0 }, dp := { s.dp with enable := true }
    pli := l } ∧ LineKeeps s.pli l := by
  obtain ⟨l, j, he, hl, hj⟩ := enterRetracting_eq s
  refine ⟨l, ?_, hl⟩
  unfold beginRetractFromHalted
  rw [he, hj.eq_of_not_stirring hs]
  simp [State.withDp, hs]

/-- With no chain the station may become IDLE (R166). -/
theorem idle_eq (s : State) : ∃ l, setStation .idle (setExecutor .idle s) = { s with
    px := { s.px with state := .idle }, su := { s.su with station := .idle }, pli := l } ∧ LineKeeps s.pli l := by
  obtain ⟨l1, h1, k1⟩ := setExecutor_eq .idle s
  obtain ⟨l2, h2, k2⟩ := setStation_eq .idle (setExecutor .idle s)
  rw [h1] at h2 k2
  refine ⟨l2, ?_, k1.trans k2⟩
  rw [h1, h2]

theorem jobClear_exec {sender dest : Nat} (h : Taken .jobClear sender dest [] s) :
    exec (.jobClear (cellFrame .jobClear sender dest [])) s = .next (settle (jobClearTaken (receptionEnds s))) := by
  show Host.Outcome.next (onFrame _ _ _ _) = _
  rw [onFrame_of_taken h]

/-- Settles O53. -/
theorem jobClearByState : Obligations.JobClearByState := by
  refine fun s sender dest htaken => ⟨fun h => ?_, fun hr he hw => ?_⟩
  · refine ⟨_, ?_, refused_effect .clearRefused s⟩
    rw [jobClear_exec htaken, jobClearTaken, receptionEnds_su, receptionEnds_dp, if_pos h]
  · obtain ⟨l, hc, hl⟩ := jobCleared_eq (receptionEnds s)
    have line : LineKeeps { s.pli with reception := .none } l := hl
    have taken : jobClearTaken (receptionEnds s) =
        if s.su.station = .unconfigured then jobCleared (receptionEnds s)
        else if s.hs.state = .halted then beginRetractFromHalted (jobCleared (receptionEnds s))
        else if s.su.station = .stopped ∧ s.hs.state = .parked then
          setStation .idle (setExecutor .idle (jobCleared (receptionEnds s)))
        else jobCleared (receptionEnds s) := by
      rw [jobClearTaken, if_neg (by simp [hr, he])]
      simp only [hc]
      rfl
    -- where nothing but the four blocks is cleared
    have clears (h : jobClearTaken (receptionEnds s) = jobCleared (receptionEnds s)) :
        ∃ l, settle (jobClearTaken (receptionEnds s)) = { s with
          ju := {}, tg := travelCleared s.tg, hs := headJobCleared s.hs
          dp := { s.dp with lostReported := false, driveReported := false }, pli := l }
        ∧ LineKeeps { s.pli with reception := .none } l := by
      obtain ⟨l', hs', hl'⟩ := settle_eq (jobCleared (receptionEnds s))
      rw [hc] at hs' hl'
      rw [h, hc, hs']
      exact ⟨l', rfl, line.trans hl'⟩
    by_cases hh : s.su.station ≠ .unconfigured ∧ s.hs.state = .halted
    · obtain ⟨hu, hh⟩ := hh
      obtain ⟨l', hb, hl'⟩ := beginRetractFromHalted_eq (s := jobCleared (receptionEnds s)) (by rw [hc]; simp [headJobCleared, hh])
      obtain ⟨l'', hs', hl''⟩ := settle_eq (beginRetractFromHalted (jobCleared (receptionEnds s)))
      have exits : exec (.jobClear (cellFrame .jobClear sender dest [])) s
          = .next (settle (beginRetractFromHalted (jobCleared (receptionEnds s)))) := by
        rw [jobClear_exec htaken, taken, if_neg hu, if_pos hh]
      rw [hb] at hs' hl''
      rw [hc] at hs' hl' hl''
      rw [hb, hc, hs'] at exits
      refine ⟨_, exits, (line.trans hl').trans hl'', rfl, rfl, fun _ _ => ⟨?_, rfl, rfl⟩, fun h => ?_, fun _ h => ?_,
          fun _ h => ?_,
        fun _ => ?_⟩
      · exact fun x hx => by cases x <;> simp [Part.same, receptionEnds] at hx ⊢
      · rcases h with h | h
        · exact absurd h hu
        · exact absurd hh h
      · rw [hh] at h
        cases h
      · rw [hh] at h
        cases h
      · exact fun x hx => by cases x <;> simp [Part.same, receptionEnds] at hx ⊢
    · have unhalted : s.su.station = .unconfigured ∨ s.hs.state ≠ .halted := by
        by_contra hc'
        simp only [not_or, not_not] at hc'
        exact hh hc'
      have noHalt (h1 : s.su.station ≠ .unconfigured) (h2 : s.hs.state = .halted) : False := hh ⟨h1, h2⟩
      by_cases hp : s.su.station = .stopped ∧ s.hs.state = .parked
      · obtain ⟨hst, hpk⟩ := hp
        obtain ⟨l', hi, hl'⟩ := idle_eq (jobCleared (receptionEnds s))
        obtain ⟨l'', hs', hl''⟩ := settle_eq (setStation .idle (setExecutor .idle (jobCleared (receptionEnds s))))
        have exits : exec (.jobClear (cellFrame .jobClear sender dest [])) s
            = .next (settle (setStation .idle (setExecutor .idle (jobCleared (receptionEnds s))))) := by
          rw [jobClear_exec htaken, taken, if_neg (by simp [hst]), if_neg (by simp [hpk]), if_pos ⟨hst, hpk⟩]
        rw [hi] at hs' hl''
        rw [hc] at hs' hl' hl''
        rw [hi, hc, hs'] at exits
        refine ⟨_, exits, (line.trans hl').trans hl'', rfl, rfl, fun h1 h2 => (noHalt h1 h2).elim, fun _ => ⟨rfl, rfl⟩,
          fun _ _ => ⟨?_, rfl, rfl⟩, fun _ h => ?_, fun h => ?_⟩
        · exact fun x hx => by cases x <;> simp [Part.same, receptionEnds] at hx ⊢
        · rw [hpk] at h
          cases h
        · rcases h with h | h <;> rw [hst] at h <;> cases h
      · have cleared : jobClearTaken (receptionEnds s) = jobCleared (receptionEnds s) := by
          rw [taken]
          rcases unhalted with h | h
          · rw [if_pos h]
          · rw [if_neg h, if_neg hp, ite_self]
        obtain ⟨l', hs', hl'⟩ := clears cleared
        have exits := jobClear_exec htaken
        rw [hs'] at exits
        refine ⟨_, exits, hl', rfl, rfl, fun h1 h2 => (noHalt h1 h2).elim, fun _ => ⟨rfl, rfl⟩,
          fun h1 h2 => absurd ⟨h1, h2⟩ hp, fun _ _ => ?_, fun _ => ?_⟩
        · exact fun x hx => by cases x <;> simp [Part.same] at hx ⊢
        · exact fun x hx => by cases x <;> simp [Part.same] at hx ⊢

/-! ### The fetch begins (R75) -/

/-- The Status Unit once NOTIFY has been acted on for record `r` at index `i` (R183). -/
def noticed (r : PassRecord) (i : Nat) (u : StatusUnit) : StatusUnit :=
  { u with
    flags := if r.notify then u.flags ||| (1#14 <<< AttentionFlag.notify.bit) else u.flags
    notifyIndex := if r.notify then some i else u.notifyIndex }

theorem notifyFetch_eq (r : PassRecord) (s : State) :
    ∃ l, notifyFetch r s = { s with su := noticed r s.px.index s.su, pli := l } ∧ LineKeeps s.pli l := by
  unfold notifyFetch
  by_cases hn : r.notify = true
  · obtain ⟨l, he, hl⟩ := raise_eq .notify s
    refine ⟨l, ?_, hl⟩
    rw [if_pos hn, he]
    simp [noticed, hn, State.withSu]
  · refine ⟨s.pli, ?_, rfl⟩
    rw [if_neg hn]
    simp [noticed, hn]

/-- R75, R183: what `Notified` says of a Status Unit in which NOTIFY has been acted on. -/
theorem notified_of_su {r : PassRecord} {i : Nat} (h : t.su = noticed r i s.su) : Notified r i [] s t := by
  have flag : ∀ f, t.flag f = (s.flag f || (r.notify && decide (f = .notify))) := fun f => by
    rw [State.flag, h]
    exact flag_raisedIf _ _ _ _
  refine ⟨by simp [flag], ?_, fun f hf _ => by simp [flag, hf]⟩
  rw [h]
  rfl

theorem takeIndex_eq (i : Nat) (s : State) : ∃ l, takeIndex i s = { s with
    px := { s.px with
      index := i, overrideInForce := s.px.pendingOverride.getD s.px.overrideInForce, pendingOverride := none
      record := some (readRecord s.pm i), passed := false, leadPartner := none, trailPartner := none }
    su := noticed (readRecord s.pm i) i s.su, pli := l } ∧ LineKeeps s.pli l := by
  obtain ⟨l, he, hl⟩ := setIndex_eq i s
  unfold takeIndex
  simp only [he]
  obtain ⟨l', hn, hl'⟩ := notifyFetch_eq (readRecord s.pm i) (State.withPx { s with px := { s.px with index := i }, pli := l }
    { s.px with
      index := i, overrideInForce := s.px.pendingOverride.getD s.px.overrideInForce, pendingOverride := none
      record := some (readRecord s.pm i), passed := false, leadPartner := none, trailPartner := none })
  exact ⟨l', hn, hl.trans hl'⟩

/-- R75: a fetch of an index of at most 511 begins. -/
theorem beginFetch_eq (role : Role) {i : Nat} (hi : i ≤ 511) (s : State) : ∃ l, beginFetch role i s = { s with
    px := { fetchBegun role i s with firstRecord := s.px.firstRecord }
    su := noticed (readRecord s.pm i) i s.su, pli := l } ∧ LineKeeps s.pli l := by
  obtain ⟨l, he, hl⟩ := setExecutor_eq .fetching (s.withPx { s.px with role := role, decided := none })
  obtain ⟨l', ht, hl'⟩ := takeIndex_eq i (setExecutor .fetching (s.withPx { s.px with role := role, decided := none }))
  rw [he] at ht hl'
  refine ⟨l', ?_, hl.trans hl'⟩
  unfold beginFetch
  rw [if_neg (show ¬ Config.recordCount ≤ i from Nat.not_le.mpr (Nat.lt_succ_of_le hi)), he, ht]
  rfl

/-! ### JOB START (R73) -/

/-- R40, R73, R173, R181: what an accepted JOB START sets before its fetch. -/
theorem startChain_eq (s : State) : ∃ l, startChain s = { s with
    px := { s.px with decided := none, secondary := none, firstRecord := true }, tg := { s.tg with followReported := false }
    dp := { s.dp with lostReported := false, driveReported := false, enable := s.dp.enable || !s.dp.estop }
    hs := { s.hs with zCommand := if s.dp.estop then s.hs.zCommand else 0 }
    su := { s.su with station := .running }, pli := l } ∧ LineKeeps s.pli l := by
  obtain ⟨l, he, hl⟩ := setStation_eq .running s
  refine ⟨l, ?_, hl⟩
  unfold startChain startEnable
  rw [he]
  cases hs : s.dp.estop <;>
    simp [State.withPx, State.withTg, State.withDp, State.withHs, hs]

/-- Settles O54. -/
theorem jobStartJudged : Obligations.JobStartJudged := by
  intro s sender dest payload htaken
  have hexec : exec (.jobStart (cellFrame .jobStart sender dest payload)) s
      = .next (settle (match jobStartIndex s.ownRank payload with
        | none => receptionEnds s
        | some i => if startRefused i (receptionEnds s) then raise .startRefused (receptionEnds s)
          else beginFetch .fresh i (startChain (receptionEnds s)))) := by
    show Host.Outcome.next (onFrame _ _ _ _) = _
    rw [onFrame_of_taken htaken]
    rfl
  refine ⟨fun hn hq => ?_, fun i hn hi => ?_⟩
  · rw [hexec, jobStartIndex, hn]
    exact congrArg Host.Outcome.next (settle_of_quiet hq)
  · have index : jobStartIndex s.ownRank payload = some i := by rw [jobStartIndex, hn, if_pos rfl, hi]
    rw [index] at hexec
    have refused : startRefused i (receptionEnds s) = true ↔
        s.su.station ≠ .idle ∨ s.px.completionPending = true ∨ s.hs.state ≠ .parked ∨ 511 < i := by
      simp [startRefused, or_assoc]
    refine ⟨fun h => ?_, fun h1 h2 h3 h4 => ?_⟩
    · refine ⟨_, ?_, refused_effect .startRefused s⟩
      rw [hexec]
      simp only [refused.mpr h, if_true]
    · have accepted : startRefused i (receptionEnds s) = false := by
        rw [Bool.eq_false_iff]
        intro hr
        rcases refused.mp hr with h | h | h | h
        · exact h h1
        · rw [h2] at h
          cases h
        · exact h h3
        · omega
      obtain ⟨l, hc, hl⟩ := startChain_eq (receptionEnds s)
      obtain ⟨l', hb, hl'⟩ := beginFetch_eq .fresh h4 (startChain (receptionEnds s))
      obtain ⟨l'', hs, hl''⟩ := settle_eq (beginFetch .fresh i (startChain (receptionEnds s)))
      rw [hb] at hs hl''
      rw [hc] at hb hs hl' hl''
      have line : LineKeeps { s.pli with reception := .none } l := hl
      simp only [accepted, Bool.false_eq_true, if_false] at hexec
      rw [hc, hb, hs] at hexec
      refine ⟨_, hexec, ?_, (line.trans hl').trans hl'', notified_of_su rfl, rfl, rfl, rfl, rfl⟩
      exact fun x hx => by cases x <;> simp [Part.same, receptionEnds] at hx ⊢

end Sys2Proof.Machine

namespace Sys2Proof.Machine

variable {s t u : State}

/-! ### A record closes and the next is fetched (R89) -/

theorem openAfterClose_of_no_lead (k : EndKind) {j : JointUnit} (h : j.currentLead = none) : openAfterClose k j = j.openList := by
  simp [openAfterClose, h]

/-- Joints that have closed with their record are not touched by a further end (R128, R135). -/
theorem afterClose_afterClose (k k' : EndKind) (j : JointUnit) : afterClose k' (afterClose k j) = afterClose k j := by
  rw [afterClose, openAfterClose_of_no_lead k' rfl]
  rfl

/-- R89, R91: what a record's close that ends the chain leaves, with p known and no LINE RESET pending. -/
structure Ended (e : Decision) (p remaining : Nat) (s t : State) : Prop where
  kept : Keeps [.tg, .px, .ju, .su, .pli] s t
  line : LineKeeps s.pli t.pli
  travel : t.tg = withdrawn s.tg
  joints : t.ju = afterClose e.kind s.ju
  executor : t.px = executorAfter (if e.kind.normal then .idle else .stopped) e s.px.secondary p remaining s
  status : t.su = { s.su with
    station := if e.kind.normal then .idle else .stopped
    flags := if hasPendingLead s.ju && e.kind != .complete then
      s.su.flags ||| (1#14 <<< AttentionFlag.jointVoided.bit) else s.su.flags }

theorem closeStopping_ended {e : Decision} {p : Nat} (hp : s.tg.p = some p) (h : s.su.lineResetPending = false) :
    Ended e p (remainingDistance s) s (closeStopping e s) := by
  obtain ⟨l, he, hl⟩ := closeStopping_eq e s h
  rw [positionReached_eq hp, show freeAfterPosition s = s.freeCount by simp [freeAfterPosition, hp]] at he
  rw [he]
  exact ⟨fun x hx => by cases x <;> simp [Part.same] at hx ⊢, hl, rfl, rfl, rfl, rfl⟩

/-- R79: a fresh fetch that fails ends the chain. -/
theorem programCheck_of_fresh (d : Detail) (hr : s.px.role = .fresh) : programCheck d s
    = closeStopping ⟨.programCheck, some d⟩ (raise .programCheck (s.withPx { s.px with passed := false })) := by
  unfold programCheck
  extract_lets e x u v w
  have role : u.px.role = .fresh := (congrArg PassExecutor.role (raise_keeps .programCheck _ .px (by decide))).trans hr
  split
  · rfl
  · next hc =>
    rw [role] at hc
    cases hc

/-- R79: a fresh fetch of an index of 512 or more fails at once. -/
theorem beginFetch_outOfRange {i p : Nat} (hi : 512 ≤ i) (hp : s.tg.p = some p) (h : s.su.lineResetPending = false) :
    Keeps [.tg, .px, .ju, .su, .pli] s (beginFetch .fresh i s) ∧ LineKeeps s.pli (beginFetch .fresh i s).pli
      ∧ (beginFetch .fresh i s).tg = withdrawn s.tg ∧ (beginFetch .fresh i s).ju = afterClose .programCheck s.ju
      ∧ (beginFetch .fresh i s).px
        = { executorAfter .stopped ⟨.programCheck, some .indexRange⟩ s.px.secondary p 0 s with role := .fresh }
      ∧ (beginFetch .fresh i s).su.station = .stopped ∧ (beginFetch .fresh i s).flag .programCheck = true := by
  obtain ⟨l, he, hl⟩ := setExecutor_eq .fetching (s.withPx { s.px with role := .fresh, decided := none })
  obtain ⟨u, hu⟩ : ∃ u : State, u = { s with
    px := { s.px with state := .fetching, role := .fresh, decided := none, record := none, passed := false },
      pli := l } := ⟨_, rfl⟩
  have begun : beginFetch .fresh i s = closeStopping ⟨.programCheck, some .indexRange⟩ (raise .programCheck u) := by
    unfold beginFetch
    rw [if_pos (show Config.recordCount ≤ i from hi), he, programCheck_of_fresh _ rfl, hu]
    rfl
  have px : (raise .programCheck u).px = u.px := raise_keeps .programCheck u .px (by decide)
  have tg : (raise .programCheck u).tg = s.tg := (raise_keeps .programCheck u .tg (by decide)).trans (by rw [hu])
  have ju : (raise .programCheck u).ju = s.ju := (raise_keeps .programCheck u .ju (by decide)).trans (by rw [hu])
  have noReset : (raise .programCheck u).su.lineResetPending = false :=
    (raise_calm .programCheck u).noReset (by rw [hu]; exact h)
  have keeps : Keeps [.px, .pli] s u := by
    rw [hu]
    exact fun x hx => by cases x <;> simp [Part.same] at hx ⊢
  have none : remainingDistance (raise .programCheck u) = 0 := by
    rw [remainingDistance, px, hu]
  have ended := closeStopping_ended (s := raise .programCheck u) (e := ⟨.programCheck, some .indexRange⟩) (p := p)
    (by rw [tg]; exact hp) noReset
  rw [begun]
  refine ⟨?_, ?_, ended.travel.trans (by rw [tg]), ended.joints.trans (by rw [ju]), ?_, ?_, ?_⟩
  · exact (keeps.then (raise_keeps .programCheck u) (n := [.px, .su, .pli]) (by rfl) (by rfl)).then ended.kept (by rfl) (by rfl)
  · have line : LineKeeps s.pli u.pli := by rw [hu]; exact hl
    exact (line.trans (raise_calm .programCheck u).line).trans ended.line
  · rw [ended.executor, none, executorAfter, executorAfter, px, hu]
    rfl
  · rw [ended.status]
    rfl
  · rw [State.flag, ended.status]
    refine (flag_raisedIf _ _ _ _).trans ?_
    have set : (raise .programCheck u).flag .programCheck = true := by simp [State.flag_raise]
    rw [show (raise .programCheck u).su.flags.getLsbD AttentionFlag.programCheck.bit = true from set]
    rfl

/-- R89: a record that closes with `e` where its next record is fetched fresh, `u` being the state `s` with that end decided. -/
theorem closeRecord_nextFetched {e : Decision} {i p : Nat}
    (hu : ∃ l, u = { s with px := executorAwaits e s, pli := l } ∧ LineKeeps s.pli l)
    (hn : nextFetch e.kind s.px.record s.px.index = some (.fresh, i)) (hp : s.tg.p = some p)
    (h : s.su.lineResetPending = false) :
    Keeps [.tg, .px, .ju, .su, .pli] s (closeRecord u) ∧ LineKeeps s.pli (closeRecord u).pli
      ∧ (closeRecord u).tg = withdrawn s.tg ∧ (closeRecord u).ju = afterClose e.kind s.ju
      ∧ NextFetched i p s (closeRecord u) := by
  obtain ⟨l, hu, hl⟩ := hu
  obtain ⟨l', hc, hl'⟩ := closeJoints_eq e.kind u
  obtain ⟨v, hv⟩ : ∃ v : State, v = { s with
    tg := withdrawn s.tg, ju := afterClose e.kind s.ju, px := { executorAwaits e s with firstRecord := false }
    su := { s.su with
      flags := if hasPendingLead s.ju && e.kind != .complete then
        s.su.flags ||| (1#14 <<< AttentionFlag.jointVoided.bit) else s.su.flags }
    pli := l' } := ⟨_, rfl⟩
  have closes : closeRecord u = beginFetch .fresh i v := by
    have decided : u.px.decided = some e := by rw [hu]; rfl
    have next : nextFetch e.kind u.px.record u.px.index = some (.fresh, i) := by rw [hu]; exact hn
    simp only [closeRecord, decided, next]
    rw [hc, hv, hu]
    rfl
  have keeps : Keeps [.tg, .px, .ju, .su, .pli] s v := by
    rw [hv]
    exact fun x hx => by cases x <;> simp [Part.same] at hx ⊢
  have line : LineKeeps s.pli v.pli := by
    rw [hu] at hl'
    rw [hv]
    exact hl.trans hl'
  rw [closes]
  by_cases hi : i ≤ 511
  · obtain ⟨l'', hb, hl''⟩ := beginFetch_eq .fresh hi v
    have flag : ∀ f, v.flag f = (s.flag f || ((hasPendingLead s.ju && e.kind != .complete) && decide (f = .jointVoided))) := by
      intro f
      rw [hv]
      exact flag_raisedIf _ _ _ _
    have notified : Notified (readRecord v.pm i) i [] v (beginFetch .fresh i v) := by
      refine notified_of_su ?_
      rw [hb]
    obtain ⟨set, su, others⟩ := notified
    refine ⟨?_, ?_, ?_, ?_, fun _ => ⟨?_, ?_, ?_, fun f hf hj => ?_⟩, fun h => absurd h (by omega)⟩
    · rw [hb]
      exact keeps.trans (fun x hx => by cases x <;> simp [Part.same] at hx ⊢)
    · rw [hb]
      exact line.trans hl''
    · rw [hb, hv]
    · rw [hb, hv]
    · rw [hb, hv]
      rfl
    · rw [set, flag, hv]
      simp
    · rw [su, hv]
    · rw [others f hf (by simp), flag, decide_eq_false (by simpa using hj), Bool.and_false, Bool.or_false]
  · obtain ⟨kept, line', travel, joints, executor, station, failed⟩ :=
      beginFetch_outOfRange (s := v) (i := i) (p := p) (by omega) (by rw [hv]; exact hp) (by rw [hv]; exact h)
    refine ⟨keeps.trans kept, line.trans line', ?_, ?_, fun h => absurd h hi, fun _ => ⟨station, failed, ?_⟩⟩
    · rw [travel, hv]
      rfl
    · rw [joints, hv]
      exact afterClose_afterClose e.kind .programCheck s.ju
    · rw [executor, hv]
      rfl

/-- R89: a record that closes with `e` where the chain ends. -/
theorem closeRecord_ended {e : Decision} {p : Nat}
    (hu : ∃ l, u = { s with px := executorAwaits e s, pli := l } ∧ LineKeeps s.pli l)
    (hn : nextFetch e.kind s.px.record s.px.index = none) (hp : s.tg.p = some p) (h : s.su.lineResetPending = false) :
    Ended e p (remainingDistance s) s (closeRecord u) := by
  obtain ⟨l, hu, hl⟩ := hu
  have closes : closeRecord u = closeStopping e u := by
    have decided : u.px.decided = some e := by rw [hu]; rfl
    have next : nextFetch e.kind u.px.record u.px.index = none := by rw [hu]; exact hn
    simp only [closeRecord, decided, next]
  have ended := closeStopping_ended (s := u) (e := e) (p := p) (by rw [hu]; exact hp) (by rw [hu]; exact h)
  have keeps : Keeps [.px, .pli] s u := by
    rw [hu]
    exact fun x hx => by cases x <;> simp [Part.same] at hx ⊢
  rw [closes]
  refine ⟨keeps.then ended.kept (by rfl) (by rfl), ?_, ended.travel.trans (by rw [hu]), ended.joints.trans (by rw [hu]), ?_, ?_⟩
  · have line : LineKeeps s.pli u.pli := by rw [hu]; exact hl
    exact line.trans ended.line
  · rw [ended.executor, hu]
    rfl
  · rw [ended.status, hu]

/-- R84, R86: the end is decided, and at rest the record closes. -/
theorem awaitEnd_of_rest {e : Decision} (hv : s.tg.v = 0) (hh : s.hs.state = .parked) :
    ∃ u, awaitEnd e s = closeRecord u ∧ ∃ l, u = { s with px := executorAwaits e s, pli := l } ∧ LineKeeps s.pli l := by
  obtain ⟨l, he, hl⟩ := setExecutor_eq .awaitHeadEnd (decideEnd e s)
  have rests : atRest (setExecutor .awaitHeadEnd (decideEnd e s)) = true := by
    rw [he]
    simp [atRest, decideEnd, State.withPx, hv, hh]
  refine ⟨setExecutor .awaitHeadEnd (decideEnd e s), ?_, l, he, hl⟩
  rw [awaitEnd, closeIfRest, rests, if_pos rfl]

/-! ### A computation that leaves the carriage standing (R34 to R37) -/

/-- R33: with a target or a fence at the carriage, the carriage stands: v 0 at p. The counters and the travel phase follow the
report. -/
def standing (s : State) (p : Nat) : State :=
  { s with tg := { s.tg with
      v := 0, fence := some (fenceAt s p), stallCount := (travelReport s p 0).2.1, stirCount := (travelReport s p 0).2.2
      phaseOpen := s.tg.phaseOpen && decide ((travelReport s p 0).1 = .none) } }

theorem advance_zero (d : Direction) (p : Nat) : advance d p 0 = p := by
  cases d <;> rfl

theorem computeTravel_of_standing {p : Nat} (hn : newSpeed s.constants s.tg.v (targetSpeed s) (distance (fenceAt s p) p) = 0) :
    computeTravel s p = {
      p := p, v := 0, fence := fenceAt s p
      intrusion := fenceIntrudes s.constants s.tg.v (distance (fenceAt s p) p)
      stallCount := (travelReport s p 0).2.1, stirCount := (travelReport s p 0).2.2
      report := (travelReport s p 0).1 } := by
  simp only [computeTravel, hn, advance_zero]

theorem travelEvent_of_standing {p : Nat} (hp : s.tg.p = some p) (ho : s.tg.phaseOpen = true)
    (hv : s.tg.v ≤ s.constants.decel)
    (hn : newSpeed s.constants s.tg.v (targetSpeed s) (distance (fenceAt s p) p) = 0) :
    travelEvent s = travelReported (travelReport s p 0).1 (standing s p) := by
  have quiet : fenceIntrudes s.constants s.tg.v (distance (fenceAt s p) p) = false := by
    rw [fenceIntrudes, decide_eq_false_iff_not]
    omega
  rw [travelEvent_of_due hp (.inl ho), computeTravel_of_standing hn, quiet]
  refine congrArg (travelReported _) ?_
  simp [applyTravel, raiseIf, standing, State.withTg, hp]

/-- R29: with the last end at p the fence is at p. -/
theorem fenceAt_of_lastEnd {p : Nat} (h : s.tg.lastEnd = some p) : fenceAt s p = p := by
  obtain ⟨bound, _⟩ := fenceAt_nearest s p
  have near := bound p (.lastEnd p h)
  cases hd : s.tg.dir with
  | up =>
    have := (fenceAt_up s p hd).1
    simp only [hd, NoFarther, aheadOrHere] at near
    omega
  | down =>
    have := fenceAt_down s p hd
    simp only [hd, NoFarther, aheadOrHere] at near
    omega

theorem newSpeed_of_no_distance (c : Constants) (v target : Nat) : newSpeed c v target 0 = 0 :=
  Nat.le_zero.mp (newSpeed_le c v target 0).2.2

theorem distance_self (p : Nat) : distance p p = 0 := by simp [distance]

/-- R34 to R37: the report of a computation that leaves the carriage standing with the travel phase open. -/
theorem travelReport_of_standing {m : MotionTarget} (ho : s.tg.phaseOpen = true) (hm : s.tg.target = some m) (p : Nat) :
    travelReport s p 0 =
      if p = m.endPos then (.pathEnd, s.tg.stallCount, s.tg.stirCount)
      else if m.kind = .weld then
        if atVoidHold s.ju p then (.holdStop, s.tg.stallCount, s.tg.stirCount)
        else (if s.constants.stirLimit ≤ s.tg.stirCount + 1 then .holdExpired else .none, s.tg.stallCount,
          min (s.tg.stirCount + 1) 2500)
      else (if s.constants.stallLimit ≤ s.tg.stallCount + 1 then .stall else .none, oneOn s.tg.stallCount, s.tg.stirCount) := by
  simp only [travelReport, Nat.lt_irrefl, if_false, ho, hm, countUp_eq_oneOn]

theorem travel_exec (s : State) : exec .travelComputation s = .next (settle (travelEvent s)) := rfl

/-- STALL and HOLD_EXPIRED are the computation that makes that report, and nothing elsewhere (log 2). -/
theorem wouldReport_of_due {p : Nat} (hp : s.tg.p = some p) (ho : s.tg.phaseOpen = true) (r : TravelReport) :
    wouldReport r s = ((computeTravel s p).report == r) := by
  simp [wouldReport, travelDue, hp, ho]

/-- R85: at rest a record's end closes it; otherwise the end waits for the head. -/
theorem executorShortEnd_of_active (e : Decision) (ha : s.px.state = .active) : executorShortEnd e s = awaitEnd e s :=
  if_pos ha

/-- R84: a path end of a record without CONTINUE. -/
theorem executorPathEnd_of_active (ha : s.px.state = .active) (hc : s.px.record.any PassRecord.continues = false) :
    executorPathEnd s = awaitEnd ⟨.complete, none⟩ s := by
  unfold executorPathEnd
  rw [if_pos ha]
  extract_lets u
  rw [show u.px.record = s.px.record from rfl, hc]
  rfl

/-- R110, R111: a report to a STIRRING head whose travel phase is closed: the head goes RETRACTING and the end waits. -/
theorem retract_then_await {e : Decision} (hs : s.hs.state = .stirring) (ho : s.tg.phaseOpen = false) :
    ∃ l j, awaitEnd e (retractOnReport s) = { s with
        hs := { s.hs with state := .retracting, phase := 0, spindle := 0, trim := 0 }, ju := j
        px := executorAwaits e s, pli := l } ∧ LineKeeps s.pli l ∧ LeftStirring s j := by
  obtain ⟨l, j, he, hl, hj⟩ := enterRetracting_eq s
  have retracts : retractOnReport s = { s with
      hs := { s.hs with state := .retracting, phase := 0, spindle := 0, trim := 0 }, ju := j, pli := l } := by
    rw [retractOnReport, if_pos hs, he]
    simp only [ho, Bool.false_and]
    rw [← ho]
  obtain ⟨l', hw, hl'⟩ := awaitEnd_eq_of_moving (s := retractOnReport s) (e := e) (.inr (by rw [retracts]; simp))
  rw [retracts] at hw hl'
  refine ⟨l', j, ?_, hl.trans hl', hj⟩
  rw [retracts, hw]
  rfl

end Sys2Proof.Machine

namespace Sys2Proof.Machine

variable {s t u v : State}

/-! ### A record that ends where the carriage stands (R34 to R37) -/

/-- A MOVE or DRY has no CONTINUE. -/
theorem continues_of_travel {r : PassRecord} (h : r.kind = some .move ∨ r.kind = some .dry) : r.continues = false := by
  rcases h with h | h <;> simp [PassRecord.continues, h]

theorem chains_of_travel {r : PassRecord} (h : r.kind = some .move ∨ r.kind = some .dry) : r.chains = r.chain := by
  rcases h with h | h <;> simp [PassRecord.chains, h]

theorem tolerates_of_travel {r : PassRecord} (h : r.kind = some .move ∨ r.kind = some .dry) : r.tolerates = r.tolerate := by
  rcases h with h | h <;> simp [PassRecord.tolerates, h]

theorem remainingDistance_of_travel {r : PassRecord} {p : Nat} (hr : s.px.record = some r)
    (h : r.kind = some .move ∨ r.kind = some .dry) (hpass : s.px.passed = true) (hp : s.tg.p = some p) :
    remainingDistance s = distance r.endPos p := by
  rcases h with h | h <;> simp [remainingDistance, hr, hpass, PassRecord.travelKind, h, positionReached_eq hp]

/-- The carriage of `s` stands where it is, v 0, and its report has closed the travel phase, the counters being as given. -/
structure StandsEnded (fence stall stir : Nat) (s u : State) : Prop where
  keeps : Keeps [.tg] s u
  travel : u.tg = { s.tg with
    v := 0, fence := some fence, phaseOpen := false, stallCount := stall, stirCount := stir }

theorem standing_ended {p stall stir : Nat} {k : TravelReport} (h : travelReport s p 0 = (k, stall, stir)) (hk : k ≠ .none) :
    StandsEnded (fenceAt s p) stall stir s (standing s p) where
  keeps := fun x hx => by cases x <;> simp [Part.same, standing] at hx ⊢
  travel := by simp [standing, h, hk]

section
variable {fence stall stir : Nat}

theorem StandsEnded.place {p : Nat} (h : StandsEnded fence stall stir s u) (hp : s.tg.p = some p) : u.tg.p = some p := by
  rw [h.travel]
  exact hp

theorem StandsEnded.lineKeeps (h : StandsEnded fence stall stir s u) (hl : LineKeeps u.pli v.pli) : LineKeeps s.pli v.pli :=
  (h.keeps .pli (by simp) : u.pli = s.pli) ▸ hl

/-- R38, R71: a record without a head closes where it stands. -/
theorem StandsEnded.rests (h : StandsEnded fence stall stir s u) (hh : s.hs.state = .parked) (e : Decision) :
    ∃ v, awaitEnd e u = closeRecord v ∧ ∃ l, v = { u with px := executorAwaits e u, pli := l } ∧ LineKeeps u.pli l :=
  awaitEnd_of_rest (by rw [h.travel]) (by rw [(h.keeps .hs (by simp) : u.hs = s.hs)]; exact hh)

/-- R89: a record that stands ends its chain. -/
theorem StandsEnded.closes {e : Decision} {p : Nat} (h : StandsEnded fence stall stir s u) (hh : s.hs.state = .parked)
    (hn : nextFetch e.kind s.px.record s.px.index = none) (hp : s.tg.p = some p) (hreset : s.su.lineResetPending = false) :
    Keeps [.tg, .px, .ju, .su, .pli] s (settle (awaitEnd e u)) ∧ LineKeeps s.pli (settle (awaitEnd e u)).pli
      ∧ (settle (awaitEnd e u)).tg = { withdrawn s.tg with v := 0, fence := some fence, stallCount := stall, stirCount := stir }
      ∧ (settle (awaitEnd e u)).px
        = executorAfter (if e.kind.normal then .idle else .stopped) e s.px.secondary p (remainingDistance u) s
      ∧ (settle (awaitEnd e u)).ju = afterClose e.kind s.ju
      ∧ (settle (awaitEnd e u)).su = { s.su with
          station := if e.kind.normal then .idle else .stopped
          flags := if hasPendingLead s.ju && e.kind != .complete then
            s.su.flags ||| (1#14 <<< AttentionFlag.jointVoided.bit) else s.su.flags } := by
  obtain ⟨v, hev, hv⟩ := h.rests hh e
  have px : u.px = s.px := h.keeps .px (by simp)
  have ju : u.ju = s.ju := h.keeps .ju (by simp)
  have su : u.su = s.su := h.keeps .su (by simp)
  have ended := closeRecord_ended hv (by rw [px]; exact hn) (h.place hp) (by rw [su]; exact hreset)
  obtain ⟨l, he, hl⟩ := settle_eq (closeRecord v)
  rw [hev]
  have kept := (h.keeps.then ended.kept (n := [.tg, .px, .ju, .su, .pli]) (by rfl) (by rfl)).then
    (settle_keeps (closeRecord v)) (n := [.tg, .px, .ju, .su, .pli]) (by rfl) (by rfl)
  rw [he] at kept ⊢
  refine ⟨kept, (h.lineKeeps ended.line).trans hl, ?_, ?_, ?_, ?_⟩
  · exact ended.travel.trans (by rw [h.travel]; rfl)
  · exact ended.executor.trans (by rw [executorAfter, executorAfter, px])
  · exact ended.joints.trans (by rw [ju])
  · exact ended.status.trans (by rw [su, ju])

/-- R89: a record that stands hands on to its next, whose fetch begins. -/
theorem StandsEnded.hands_on {e : Decision} {i p : Nat} (h : StandsEnded fence stall stir s u) (hh : s.hs.state = .parked)
    (hn : nextFetch e.kind s.px.record s.px.index = some (.fresh, i)) (hp : s.tg.p = some p)
    (hreset : s.su.lineResetPending = false) :
    Keeps [.tg, .px, .ju, .su, .pli] s (settle (awaitEnd e u)) ∧ LineKeeps s.pli (settle (awaitEnd e u)).pli
      ∧ (settle (awaitEnd e u)).tg = { withdrawn s.tg with v := 0, fence := some fence, stallCount := stall, stirCount := stir }
      ∧ (settle (awaitEnd e u)).ju = afterClose e.kind s.ju ∧ NextFetched i p s (settle (awaitEnd e u)) := by
  obtain ⟨v, hev, hv⟩ := h.rests hh e
  have px : u.px = s.px := h.keeps .px (by simp)
  have ju : u.ju = s.ju := h.keeps .ju (by simp)
  have su : u.su = s.su := h.keeps .su (by simp)
  have pm : u.pm = s.pm := h.keeps .pm (by simp)
  obtain ⟨kept, line, travel, joints, below, above⟩ :=
    closeRecord_nextFetched hv (by rw [px]; exact hn) (h.place hp) (by rw [su]; exact hreset)
  obtain ⟨l, he, hl⟩ := settle_eq (closeRecord v)
  rw [hev]
  have keeps := (h.keeps.then kept (n := [.tg, .px, .ju, .su, .pli]) (by rfl) (by rfl)).then
    (settle_keeps (closeRecord v)) (n := [.tg, .px, .ju, .su, .pli]) (by rfl) (by rfl)
  simp only [fetchBegun, Notified, executorAfter, State.flag, px, su, pm] at below above
  rw [he] at keeps ⊢
  exact ⟨keeps, (h.lineKeeps line).trans hl, travel.trans (by rw [h.travel]; rfl), joints.trans (by rw [ju]), below, above⟩

/-- R110, R111: a WELD that stands: the head goes RETRACTING and the executor waits for its end. -/
theorem StandsEnded.retracts (h : StandsEnded fence stall stir s u) (hh : s.hs.state = .stirring) (e : Decision) :
    Keeps [.tg, .px, .hs, .ju, .pli] s (settle (awaitEnd e (retractOnReport u)))
      ∧ LineKeeps s.pli (settle (awaitEnd e (retractOnReport u))).pli
      ∧ (settle (awaitEnd e (retractOnReport u))).tg = { s.tg with
          v := 0, fence := some fence, phaseOpen := false, stallCount := stall, stirCount := stir }
      ∧ (settle (awaitEnd e (retractOnReport u))).px = executorAwaits e s
      ∧ (settle (awaitEnd e (retractOnReport u))).hs = { s.hs with state := .retracting, phase := 0, spindle := 0, trim := 0 }
      ∧ LeftStirring s (settle (awaitEnd e (retractOnReport u))).ju := by
  have px : u.px = s.px := h.keeps .px (by simp)
  have hs : u.hs = s.hs := h.keeps .hs (by simp)
  have ju : u.ju = s.ju := h.keeps .ju (by simp)
  obtain ⟨l, j, hw, hl, hj⟩ := retract_then_await (e := e) (by rw [hs]; exact hh) (by rw [h.travel])
  have left : LeftStirring s j := hj.congr (by rw [hs]) ju.symm (by rw [h.travel]) (by rw [h.travel])
  have retracted : Keeps [.px, .hs, .ju, .pli] u (awaitEnd e (retractOnReport u)) := by
    rw [hw]
    exact fun x hx => by cases x <;> simp [Part.same] at hx ⊢
  have kept := (h.keeps.then retracted (n := [.tg, .px, .hs, .ju, .pli]) (by rfl) (by rfl)).then
    (settle_keeps _) (n := [.tg, .px, .hs, .ju, .pli]) (by rfl) (by rfl)
  obtain ⟨l', he, hl'⟩ := settle_eq (awaitEnd e (retractOnReport u))
  rw [he] at kept ⊢
  rw [hw] at kept hl' ⊢
  exact ⟨kept, h.lineKeeps (v := { u with pli := l' }) (hl.trans hl'), h.travel,
    (by simp only [executorAwaits, px]), (by rw [hs]), left⟩

end

/-! ### The path end (R34, R84) -/

/-- Settles O17. -/
theorem pathEndCompletes : Obligations.PathEndCompletes := by
  intro s r m p ha hr hm hend hrend hp hlast ho hv hreset
  have fence := fenceAt_of_lastEnd hlast
  have stands : newSpeed s.constants s.tg.v (targetSpeed s) (distance (fenceAt s p) p) = 0 := by
    rw [fence, distance_self, newSpeed_of_no_distance]
  have report : travelReport s p 0 = (.pathEnd, s.tg.stallCount, s.tg.stirCount) := by
    rw [travelReport_of_standing ho hm, if_pos hend.symm]
  have ended := standing_ended report (by decide)
  obtain ⟨u, hu⟩ : ∃ u, u = standing s p := ⟨_, rfl⟩
  rw [← hu, fence] at ended
  have px : u.px = s.px := ended.keeps .px (by simp)
  have hs : u.hs = s.hs := ended.keeps .hs (by simp)
  have target : u.tg.target = some m := by rw [ended.travel]; exact hm
  have event : travelEvent s = travelReported .pathEnd u := by
    rw [travelEvent_of_standing hp ho hv stands, report, hu]
  -- a MOVE or DRY reaches the executor alone
  have closes (hk : m.kind ≠ .weld) (hkind : r.kind = some .move ∨ r.kind = some .dry) :
      travelEvent s = awaitEnd ⟨.complete, none⟩ u := by
    rw [event, show travelReported .pathEnd u = executorPathEnd u by simp [travelReported, target, hk],
      executorPathEnd_of_active (by rw [px]; exact ha) (by rw [px, hr]; simp [continues_of_travel hkind])]
  refine ⟨fun hk hkind hchain hpass hh => ?_, fun hk hkind hchain hh => ?_, fun w hk hkind hcont hh hw hwc => ?_⟩
  · have next : nextFetch .complete s.px.record s.px.index = none := by
      rw [hr]
      simp [nextFetch, continues_of_travel hkind, chains_of_travel hkind, hchain]
    obtain ⟨kept, line, travel, executor, joints, status⟩ := ended.closes (e := ⟨.complete, none⟩) hh next hp hreset
    have remaining : remainingDistance u = 0 := by
      rw [remainingDistance_of_travel (by rw [px]; exact hr) hkind (by rw [px]; exact hpass) (ended.place hp), hrend,
        distance_self]
    rw [travel_exec, closes hk hkind]
    refine ⟨_, rfl, kept, line, travel, ?_, joints, ?_⟩
    · rw [executor, remaining]
      rfl
    · rw [status]
      simp [EndKind.normal]
  · have next : nextFetch .complete s.px.record s.px.index = some (.fresh, s.px.index + 1) := by
      rw [hr]
      simp [nextFetch, continues_of_travel hkind, chains_of_travel hkind, hchain]
    rw [travel_exec, closes hk hkind]
    obtain ⟨kept, line, travel, joints, fetched⟩ := ended.hands_on (e := ⟨.complete, none⟩) hh next hp hreset
    exact ⟨_, rfl, kept, line, travel, joints, fetched⟩
  · have retracts : travelEvent s = awaitEnd ⟨.complete, none⟩ (retractOnReport u) := by
      have reported : travelReported .pathEnd u = executorPathEnd (retractOnReport u) := by
        simp [travelReported, target, hk, headPathEnd, hs, hw, hwc]
      have same : (retractOnReport u).px = s.px := (retractOnReport_keeps u .px (by simp)).trans px
      rw [event, reported, executorPathEnd_of_active (by rw [same]; exact ha)
        (by rw [same, hr]; simp [PassRecord.continues, hcont])]
    rw [travel_exec, retracts]
    exact ⟨_, rfl, ended.retracts hh _⟩

end Sys2Proof.Machine

namespace Sys2Proof.Machine

variable {s t u : State}

/-! ### A record that stands short of its end (R35 to R37) -/

theorem wouldReport_eq_true {k : TravelReport} (h : wouldReport k s = true) :
    ∃ p, s.tg.p = some p ∧ (computeTravel s p).report = k := by
  unfold wouldReport travelDue at h
  split at h
  · cases h
  · next p hp =>
    split at h
    · exact ⟨p, hp, eq_of_beq h⟩
    · cases h

/-- A report comes about only with the carriage standing under an open travel phase with a target (R34 to R37). -/
theorem standing_of_wouldReport {k : TravelReport} (hk : k ≠ .none) (h : wouldReport k s = true) :
    ∃ p m, s.tg.p = some p ∧ s.tg.phaseOpen = true ∧ s.tg.target = some m
      ∧ newSpeed s.constants s.tg.v (targetSpeed s) (distance (fenceAt s p) p) = 0 ∧ (travelReport s p 0).1 = k := by
  obtain ⟨p, hp, hr⟩ := wouldReport_eq_true h
  obtain ⟨v, hv⟩ : ∃ v, v = newSpeed s.constants s.tg.v (targetSpeed s) (distance (fenceAt s p) p) := ⟨_, rfl⟩
  have report : (computeTravel s p).report = (travelReport s (advance s.tg.dir p v) v).1 := by rw [hv]; rfl
  rw [report] at hr
  have moving (q : Nat) (hm : 0 < v ∨ s.tg.phaseOpen = false) : (travelReport s q v).1 = .none := by
    rw [travelReport_of_moving hm]
  have stands : v = 0 := by
    by_contra hn
    exact hk (hr.symm.trans (moving _ (.inl (Nat.pos_of_ne_zero hn))))
  have opens : s.tg.phaseOpen = true := by
    by_contra hn
    exact hk (hr.symm.trans (moving _ (.inr (eq_false_of_ne_true hn))))
  rw [stands, advance_zero] at hr
  cases ht : s.tg.target with
  | none =>
    refine absurd (hr.symm.trans ?_) hk
    simp only [travelReport, Nat.lt_irrefl, if_false, opens, ht]
  | some m => exact ⟨p, m, hp, opens, rfl, hv.symm.trans stands, hr⟩

/-- R35: STALL is reported at the limit, short of the end, for a target that is no WELD's. -/
theorem stall_iff {m : MotionTarget} (ho : s.tg.phaseOpen = true) (hm : s.tg.target = some m) (p : Nat) :
    (travelReport s p 0).1 = .stall
      ↔ p ≠ m.endPos ∧ m.kind ≠ .weld ∧ s.constants.stallLimit ≤ s.tg.stallCount + 1 := by
  rw [travelReport_of_standing ho hm]
  split_ifs <;> simp_all

/-- R36: HOLD_EXPIRED is reported at the limit, short of the end and of the hold point of a VOID joint, for a WELD. -/
theorem holdExpired_iff {m : MotionTarget} (ho : s.tg.phaseOpen = true) (hm : s.tg.target = some m) (p : Nat) :
    (travelReport s p 0).1 = .holdExpired
      ↔ p ≠ m.endPos ∧ m.kind = .weld ∧ atVoidHold s.ju p = false ∧ s.constants.stirLimit ≤ s.tg.stirCount + 1 := by
  rw [travelReport_of_standing ho hm]
  split_ifs <;> simp_all

theorem stall_exec_of_not (h : wouldReport .stall s = false) : exec .stall s = .next s := by
  show execStall s = _
  rw [execStall, h]
  rfl

theorem holdExpired_exec_of_not (h : wouldReport .holdExpired s = false) : exec .holdExpired s = .next s := by
  show execHoldExpired s = _
  rw [execHoldExpired, h]
  rfl

theorem stall_exec_of_due (h : wouldReport .stall s = true) : exec .stall s = exec .travelComputation s := by
  show execStall s = _
  rw [execStall, h]
  rfl

theorem holdExpired_exec_of_due (h : wouldReport .holdExpired s = true) : exec .holdExpired s = exec .travelComputation s := by
  show execHoldExpired s = _
  rw [execHoldExpired, h]
  rfl

/-- The carriage stands at p under an open travel phase. -/
structure Stands (p : Nat) (s : State) : Prop where
  place : s.tg.p = some p
  opens : s.tg.phaseOpen = true
  slow : s.tg.v ≤ s.constants.decel
  still : newSpeed s.constants s.tg.v (targetSpeed s) (distance (fenceAt s p) p) = 0

theorem Stands.wouldReport_eq {p : Nat} (h : Stands p s) (k : TravelReport) :
    wouldReport k s = decide ((travelReport s p 0).1 = k) := by
  rw [wouldReport_of_due h.place h.opens, computeTravel_of_standing h.still]
  rfl

theorem Stands.event {p : Nat} (h : Stands p s) : travelEvent s = travelReported (travelReport s p 0).1 (standing s p) :=
  travelEvent_of_standing h.place h.opens h.slow h.still

theorem Stands.computes {p stall stir : Nat} {k : TravelReport} (h : Stands p s) (hr : travelReport s p 0 = (k, stall, stir))
    (ht : travelReported k (standing s p) = t) : exec .travelComputation s = .next (settle t) := by
  rw [travel_exec, h.event, hr, ← ht]

/-- A standing computation without a report counts, and nothing else (R35, R36). -/
theorem Stands.counts {p stall stir : Nat} (h : Stands p s) (hr : travelReport s p 0 = (.none, stall, stir))
    (quiet : s.pli.changeNoted = false) : exec .travelComputation s = .next { s with
      tg := { s.tg with v := 0, fence := some (fenceAt s p), stallCount := stall, stirCount := stir } } := by
  have stays : standing s p = { s with
      tg := { s.tg with v := 0, fence := some (fenceAt s p), stallCount := stall, stirCount := stir } } := by
    simp [standing, hr]
  rw [travel_exec, h.event, hr, stays]
  exact congrArg _ (settle_of_quiet (by exact quiet))

/-- R35, R85: a MOVE or DRY that stands short of its end. -/
theorem travel_stands_short {r : PassRecord} {m : MotionTarget} {p : Nat} (ha : s.px.state = .active)
    (hr : s.px.record = some r) (hkind : r.kind = some .move ∨ r.kind = some .dry) (hpass : s.px.passed = true)
    (hh : s.hs.state = .parked) (hm : s.tg.target = some m) (hk : m.kind ≠ .weld) (hne : p ≠ m.endPos) (stands : Stands p s)
    (hreset : s.su.lineResetPending = false) :
    (s.constants.stallLimit ≤ s.tg.stallCount + 1 → (r.tolerate = false ∨ r.chain = false) →
      ∃ t, exec .stall s = .next t ∧ exec .travelComputation s = .next t
        ∧ Keeps [.tg, .px, .ju, .su, .pli] s t ∧ LineKeeps s.pli t.pli
        ∧ t.tg = { withdrawn s.tg with v := 0, fence := some (fenceAt s p), stallCount := oneOn s.tg.stallCount }
        ∧ t.px = executorAfter .idle ⟨.short, some .stall⟩ s.px.secondary p (distance r.endPos p) s
        ∧ t.ju = afterClose .short s.ju ∧ t.su.station = .idle)
    ∧ (s.constants.stallLimit ≤ s.tg.stallCount + 1 → r.tolerate = true → r.chain = true →
      ∃ t, exec .stall s = .next t ∧ exec .travelComputation s = .next t
        ∧ Keeps [.tg, .px, .ju, .su, .pli] s t ∧ LineKeeps s.pli t.pli
        ∧ t.tg = { withdrawn s.tg with v := 0, fence := some (fenceAt s p), stallCount := oneOn s.tg.stallCount }
        ∧ t.ju = afterClose .short s.ju ∧ NextFetched (s.px.index + 1) p s t)
    ∧ (s.tg.stallCount + 1 < s.constants.stallLimit → s.pli.changeNoted = false →
      exec .stall s = .next s
        ∧ exec .travelComputation s = .next { s with
            tg := { s.tg with v := 0, fence := some (fenceAt s p), stallCount := oneOn s.tg.stallCount } }) := by
  have report : travelReport s p 0
      = (if s.constants.stallLimit ≤ s.tg.stallCount + 1 then .stall else .none, oneOn s.tg.stallCount, s.tg.stirCount) := by
    rw [travelReport_of_standing stands.opens hm, if_neg hne, if_neg hk]
  have next : nextFetch .short s.px.record s.px.index
      = if r.tolerate && r.chain then some (.fresh, s.px.index + 1) else none := by
    rw [hr]
    simp only [nextFetch, tolerates_of_travel hkind, continues_of_travel hkind, chains_of_travel hkind, Bool.or_false]
  obtain ⟨u, hu⟩ : ∃ u, u = standing s p := ⟨_, rfl⟩
  -- at the limit the report is STALL, and the record closes
  have stalls (limit : s.constants.stallLimit ≤ s.tg.stallCount + 1) :
      StandsEnded (fenceAt s p) (oneOn s.tg.stallCount) s.tg.stirCount s u
        ∧ exec .travelComputation s = .next (settle (awaitEnd ⟨.short, some .stall⟩ u))
        ∧ exec .stall s = .next (settle (awaitEnd ⟨.short, some .stall⟩ u)) := by
    rw [if_pos limit] at report
    have ended := standing_ended report (by decide)
    rw [← hu] at ended
    have computes : exec .travelComputation s = .next (settle (awaitEnd ⟨.short, some .stall⟩ u)) := by
      refine stands.computes report ?_
      rw [← hu]
      exact executorShortEnd_of_active _ (by rw [(ended.keeps .px (by simp) : u.px = s.px)]; exact ha)
    exact ⟨ended, computes, (stall_exec_of_due (by rw [stands.wouldReport_eq, report]; rfl)).trans computes⟩
  refine ⟨fun limit hends => ?_, fun limit htol hchain => ?_, fun below quiet => ⟨?_, ?_⟩⟩
  · obtain ⟨ended, computes, stall⟩ := stalls limit
    have none : nextFetch .short s.px.record s.px.index = none := by
      rw [next]
      rcases hends with h | h <;> simp [h]
    obtain ⟨kept, line, travel, executor, joints, status⟩ :=
      ended.closes (e := ⟨.short, some .stall⟩) hh none stands.place hreset
    have remaining : remainingDistance u = distance r.endPos p := by
      have px : u.px = s.px := ended.keeps .px (by simp)
      exact remainingDistance_of_travel (by rw [px]; exact hr) hkind (by rw [px]; exact hpass) (ended.place stands.place)
    exact ⟨_, stall, computes, kept, line, travel, by rw [executor, remaining]; rfl, joints, by rw [status]; rfl⟩
  · obtain ⟨ended, computes, stall⟩ := stalls limit
    have fresh : nextFetch .short s.px.record s.px.index = some (.fresh, s.px.index + 1) := by
      rw [next, htol, hchain]
      rfl
    exact ⟨_, stall, computes, ended.hands_on (e := ⟨.short, some .stall⟩) hh fresh stands.place hreset⟩
  · refine stall_exec_of_not ?_
    rw [stands.wouldReport_eq, report, if_neg (by omega)]
    rfl
  · rw [if_neg (by omega)] at report
    exact stands.counts report quiet

/-- R36, R37, R111: a WELD that stands short of its end. -/
theorem weld_stands_short {m : MotionTarget} {p : Nat} (ha : s.px.state = .active) (hh : s.hs.state = .stirring)
    (hm : s.tg.target = some m) (hk : m.kind = .weld) (hne : p ≠ m.endPos) (stands : Stands p s)
    (quiet : s.pli.changeNoted = false) :
    ((∀ a, s.ju.awaited = some a → a.state = .void → a.hold ≠ p) →
      (s.constants.stirLimit ≤ s.tg.stirCount + 1 →
        ∃ t, exec .holdExpired s = .next t ∧ exec .travelComputation s = .next t
          ∧ Keeps [.tg, .px, .hs, .ju, .pli] s t ∧ LineKeeps s.pli t.pli
          ∧ t.tg = { s.tg with
              v := 0, fence := some (fenceAt s p), phaseOpen := false, stirCount := min (s.tg.stirCount + 1) 2500 }
          ∧ t.px = executorAwaits ⟨.short, some .holdExpired⟩ s
          ∧ t.hs = { s.hs with state := .retracting, phase := 0, spindle := 0, trim := 0 } ∧ LeftStirring s t.ju)
      ∧ (s.tg.stirCount + 1 < s.constants.stirLimit →
        exec .holdExpired s = .next s
          ∧ exec .travelComputation s = .next { s with
              tg := { s.tg with v := 0, fence := some (fenceAt s p), stirCount := min (s.tg.stirCount + 1) 2500 } }))
    ∧ (∀ a, s.ju.awaited = some a → a.state = .void → a.hold = p →
      exec .holdExpired s = .next s
      ∧ ∃ t, exec .travelComputation s = .next t
        ∧ Keeps [.tg, .px, .hs, .ju, .pli] s t ∧ LineKeeps s.pli t.pli
        ∧ t.tg = { s.tg with v := 0, fence := some (fenceAt s p), phaseOpen := false }
        ∧ t.px = executorAwaits ⟨.voidAlt, none⟩ s
        ∧ t.hs = { s.hs with state := .retracting, phase := 0, spindle := 0, trim := 0 } ∧ LeftStirring s t.ju) := by
  have report : travelReport s p 0 = if atVoidHold s.ju p then (.holdStop, s.tg.stallCount, s.tg.stirCount)
      else (if s.constants.stirLimit ≤ s.tg.stirCount + 1 then .holdExpired else .none, s.tg.stallCount,
        min (s.tg.stirCount + 1) 2500) := by
    rw [travelReport_of_standing stands.opens hm, if_neg hne, if_pos hk]
  obtain ⟨u, hu⟩ : ∃ u, u = standing s p := ⟨_, rfl⟩
  have await (e : Decision) {stall stir : Nat} (ended : StandsEnded (fenceAt s p) stall stir s u) :
      executorShortEnd e (retractOnReport u) = awaitEnd e (retractOnReport u) := by
    have px : u.px = s.px := ended.keeps .px (by simp)
    exact executorShortEnd_of_active e (by rw [(retractOnReport_keeps u .px (by simp) : (retractOnReport u).px = u.px), px]; exact ha)
  refine ⟨fun free => ?_, fun a haw hvoid hhold => ?_⟩
  · have notHeld : atVoidHold s.ju p = false := by
      rw [atVoidHold]
      split
      · next a haw =>
        by_cases hv : a.state = .void
        · simp [free a haw hv]
        · simp [hv]
      · rfl
    rw [if_neg (by rw [notHeld]; decide)] at report
    refine ⟨fun limit => ?_, fun below => ⟨?_, ?_⟩⟩
    · rw [if_pos limit] at report
      have ended := standing_ended report (by decide)
      rw [← hu] at ended
      have computes : exec .travelComputation s
          = .next (settle (awaitEnd ⟨.short, some .holdExpired⟩ (retractOnReport u))) := by
        refine stands.computes report ?_
        rw [← hu]
        exact await _ ended
      exact ⟨_, (holdExpired_exec_of_due (by rw [stands.wouldReport_eq, report]; rfl)).trans computes, computes,
        ended.retracts (by exact hh) _⟩
    · refine holdExpired_exec_of_not ?_
      rw [stands.wouldReport_eq, report, if_neg (by omega)]
      rfl
    · rw [if_neg (by omega)] at report
      exact stands.counts report quiet
  · rw [if_pos (by simp [atVoidHold, haw, hvoid, hhold])] at report
    have ended := standing_ended report (by decide)
    rw [← hu] at ended
    have computes : exec .travelComputation s = .next (settle (awaitEnd ⟨.voidAlt, none⟩ (retractOnReport u))) := by
      refine stands.computes report ?_
      rw [← hu]
      exact await _ ended
    exact ⟨holdExpired_exec_of_not (by rw [stands.wouldReport_eq, report]; rfl), _, computes, ended.retracts hh _⟩

/-- Settles O18. -/
theorem standingEndsShort : Obligations.StandingEndsShort := by
  refine ⟨fun s r m p ha hr hkind hpass hh hm hk hp hne ho hv hn hreset =>
      travel_stands_short ha hr hkind hpass hh hm hk hne ⟨hp, ho, hv, hn⟩ hreset,
    fun s => ⟨fun h => stall_exec_of_not (Bool.eq_false_iff.mpr fun would => ?_),
      fun h => holdExpired_exec_of_not (Bool.eq_false_iff.mpr fun would => ?_)⟩,
    fun s m p ha hh hm hk hp hne ho hv hn quiet => weld_stands_short ha hh hm hk hne ⟨hp, ho, hv, hn⟩ quiet⟩
  · obtain ⟨p, m, hp, ho, hm, hn, hr⟩ := standing_of_wouldReport (by decide) would
    obtain ⟨hne, hk, limit⟩ := (stall_iff ho hm p).mp hr
    rcases h with h | h | h | h | ⟨m', hm', h⟩ | ⟨q, hq, h⟩
    · rw [hp] at h; cases h
    · rw [ho] at h; cases h
    · rw [hm] at h; cases h
    · omega
    · obtain rfl : m = m' := Option.some.inj (hm.symm.trans hm')
      exact h.elim hk fun h => hne (Option.some.inj (hp.symm.trans h))
    · obtain rfl : p = q := Option.some.inj (hp.symm.trans hq)
      omega
  · obtain ⟨p, m, hp, ho, hm, hn, hr⟩ := standing_of_wouldReport (by decide) would
    obtain ⟨hne, hk, notHeld, limit⟩ := (holdExpired_iff ho hm p).mp hr
    rcases h with h | h | h | h | ⟨m', hm', h⟩ | ⟨a, haw, hvoid, hhold⟩ | ⟨q, hq, h⟩
    · rw [hp] at h; cases h
    · rw [ho] at h; cases h
    · rw [hm] at h; cases h
    · omega
    · obtain rfl : m = m' := Option.some.inj (hm.symm.trans hm')
      exact h.elim (fun h => h hk) fun h => hne (Option.some.inj (hp.symm.trans h))
    · obtain rfl : p = a.hold := Option.some.inj (hp.symm.trans hhold)
      simp [atVoidHold, haw, hvoid] at notHeld
    · obtain rfl : p = q := Option.some.inj (hp.symm.trans hq)
      omega

end Sys2Proof.Machine

namespace Sys2Proof.Machine

variable {s t u : State}

/-! ### The joint parts of a record that starts (R125, R131, R132) -/

theorem directionTo_eq_towards (a b : Nat) (held : Direction) : directionTo a b held = towards a b held := rfl

theorem releasePoint_eq (d : Direction) (start release : Nat) :
    releasePoint d start release = if d = .up then start + release else start - release := by
  cases d <;> rfl

theorem holdPoint_eq (d : Direction) (x standoff : Nat) :
    holdPoint d x standoff = if d = .up then x - standoff else x + standoff := by
  cases d <;> rfl

/-- R132, case by case of the state held and the state found. -/
theorem evaluateJoint_evaluated (reports : List JointReport) (a : AwaitedJoint) : Evaluated reports a (evaluateJoint reports a) := by
  obtain ⟨id, partner, entryX, hold, cool, state, rem⟩ := a
  refine ⟨fun h => ?_, fun h => ?_, fun x hx h => ?_⟩
  · rcases h with rfl | rfl <;> rfl
  · cases state <;> simp only [evaluateJoint, evaluateWith, h]
  · rcases h with rfl | rfl <;> simp +contextual [evaluateJoint, evaluateWith, hx, Nat.not_le.mpr]

/-- The Joint Unit `u` once the parts of record `r` in direction `d` have been added in `s` (R125, R131). -/
structure JointsStarted (r : PassRecord) (d : Direction) (s : State) (u : JointUnit) : Prop where
  closedList : u.closedList = s.ju.closedList
  noLead : r.leadId = 0 ∨ s.px.role = .continuation → u.openList = s.ju.openList ∧ u.currentLead = s.ju.currentLead
  lead : ∀ q, s.px.role = .fresh → r.leadId ≠ 0 → s.px.leadPartner = some q →
    u.currentLead = some r.leadId ∧ u.openList = s.ju.openList ++ [leadEntry r q d]
  trail : Awaits r s.px.trailPartner d s u.awaited
  trailId : r.trailId ≠ 0 → s.px.trailPartner ≠ none → ∃ a, u.awaited = some a ∧ a.id = r.trailId

/-- The lead part of `startJoints`. -/
def leadOpened (r : PassRecord) (d : Direction) (s : State) : JointUnit :=
  match s.px.role, s.px.leadPartner with
  | .fresh, some q => if r.leadId = 0 then s.ju else openJoint r.leadId q (releasePoint d r.start r.release) s.ju
  | _, _ => s.ju

/-- The trail part of `startJoints`. -/
def trailAwaited (r : PassRecord) (d : Direction) (s : State) (u : JointUnit) : JointUnit :=
  match s.px.trailPartner with
  | some q =>
    if r.trailId = 0 then u
    else awaitJoint r.trailId q r.entryX (holdPoint d r.entryX r.standoff) r.coolDwell (filedOpen s q) u
  | none => u

theorem leadOpened_trail (r : PassRecord) (d : Direction) (s : State) :
    (leadOpened r d s).awaited = s.ju.awaited ∧ (leadOpened r d s).closedList = s.ju.closedList := by
  unfold leadOpened
  split
  · split <;> exact ⟨rfl, rfl⟩
  · exact ⟨rfl, rfl⟩

theorem trailAwaited_lead (r : PassRecord) (d : Direction) (s : State) (u : JointUnit) :
    (trailAwaited r d s u).openList = u.openList ∧ (trailAwaited r d s u).currentLead = u.currentLead
      ∧ (trailAwaited r d s u).closedList = u.closedList := by
  unfold trailAwaited
  split
  · split <;> exact ⟨rfl, rfl, rfl⟩
  · exact ⟨rfl, rfl, rfl⟩

theorem leadOpened_of_lead {r : PassRecord} {d : Direction} {q : Rank} (hr : s.px.role = .fresh) (hl : r.leadId ≠ 0)
    (hq : s.px.leadPartner = some q) : (leadOpened r d s).currentLead = some r.leadId
      ∧ (leadOpened r d s).openList = s.ju.openList ++ [leadEntry r q d] := by
  simp only [leadOpened, hr, hq, if_neg hl, openJoint, releasePoint_eq, leadEntry, and_self]

theorem leadOpened_of_no_lead {r : PassRecord} (d : Direction) (h : r.leadId = 0 ∨ s.px.role = .continuation) :
    leadOpened r d s = s.ju := by
  unfold leadOpened
  split
  · next hr _ =>
    rw [hr] at h
    rw [if_pos (h.resolve_right (by decide))]
  · rfl

theorem trailAwaited_of_trail {r : PassRecord} {d : Direction} {q : Rank} (ht : r.trailId ≠ 0)
    (hq : s.px.trailPartner = some q) (u : JointUnit) :
    (trailAwaited r d s u).awaited = some (evaluateJoint (filedOpen s q) (trailJoint r q d)) := by
  simp only [trailAwaited, hq, if_neg ht, awaitJoint, holdPoint_eq, trailJoint]

theorem trailAwaited_of_no_trail {r : PassRecord} (d : Direction) (h : r.trailId = 0) (u : JointUnit) :
    trailAwaited r d s u = u := by
  simp only [trailAwaited, h, if_true]
  split <;> rfl

theorem jointsStarted_spec (r : PassRecord) (d : Direction) (s : State) :
    JointsStarted r d s (trailAwaited r d s (leadOpened r d s)) := by
  obtain ⟨awaited, closed⟩ := leadOpened_trail r d s
  obtain ⟨openList, currentLead, closedList⟩ := trailAwaited_lead r d s (leadOpened r d s)
  refine ⟨closedList.trans closed, fun h => ?_, fun q hr hl hq => ?_, ⟨fun h => ?_, fun h q hq => ?_⟩, fun h hq => ?_⟩
  · rw [openList, currentLead, leadOpened_of_no_lead d h]
    exact ⟨rfl, rfl⟩
  · rw [openList, currentLead]
    exact leadOpened_of_lead hr hl hq
  · rw [trailAwaited_of_no_trail d h, awaited]
  · exact ⟨_, trailAwaited_of_trail h hq _, evaluateJoint_evaluated _ _⟩
  · obtain ⟨q, hq⟩ := Option.ne_none_iff_exists'.mp hq
    exact ⟨_, trailAwaited_of_trail h hq _, rfl⟩

theorem startJoints_eq (r : PassRecord) (d : Direction) (s : State) :
    ∃ u l, startJoints r d s = { s with ju := u, pli := l } ∧ LineKeeps s.pli l ∧ JointsStarted r d s u := by
  obtain ⟨l, he, hl⟩ := setJoints_eq (trailAwaited r d s (leadOpened r d s)) s
  exact ⟨_, l, he, hl, jointsStarted_spec r d s⟩

/-! ### A fresh WELD starts (R22, R81, R101) -/

theorem spinUp_eq (w : WeldParams) (s : State) :
    ∃ l, spinUp w s = { s with
        hs := { s.hs with state := .spinningUp, phase := 0, weld := some w, spindle := w.rpm, zCommand := 0 }, pli := l }
      ∧ LineKeeps s.pli l := by
  obtain ⟨l, he, hl⟩ := enterHead_eq .spinningUp s
  exact ⟨l, by rw [spinUp, he]; rfl, hl⟩

/-- R81: the target given and the joint parts added. -/
theorem startFreshWeld_prepares (r : PassRecord) (s : State) :
    ∃ u l, startJoints r (weldDirection .fresh s.tg.dir r)
        (giveTarget ⟨.weld, r.endPos, r.rate⟩ (travelDirection r.endPos s) false s)
      = { s with tg := targetGiven .weld r (travelDirection r.endPos s) false s.tg, ju := u, pli := l }
      ∧ LineKeeps s.pli l ∧ JointsStarted r (towards r.start r.endPos s.tg.dir) s u := by
  obtain ⟨u, l, he, hl, hu⟩ := startJoints_eq r (weldDirection .fresh s.tg.dir r)
    (giveTarget ⟨.weld, r.endPos, r.rate⟩ (travelDirection r.endPos s) false s)
  obtain ⟨h1, h2, h3, h4, h5⟩ := hu
  exact ⟨u, l, he, hl, h1, h2, h3, h4, h5⟩

/-- R81, R101: with the clamps made the head takes the weld request. -/
theorem startFreshWeld_of_clamped {r : PassRecord} (hh : s.hs.state = .parked) (hc : s.dp.clamp = true)
    (he : s.dp.estop = false) (hs : s.su.station = .running) :
    ∃ u l, startFreshWeld r s = { s with
        tg := targetGiven .weld r (travelDirection r.endPos s) false s.tg, ju := u, hs := headBegun r s.hs, pli := l }
      ∧ LineKeeps s.pli l ∧ JointsStarted r (towards r.start r.endPos s.tg.dir) s u := by
  obtain ⟨u, l, hp, hl, hu⟩ := startFreshWeld_prepares r s
  obtain ⟨l', hw, hl'⟩ := spinUp_eq ⟨r.rpm, r.plungeDepth, r.plungeRate, r.plungeDwell, r.setpoint, r.cont⟩
    { s with tg := targetGiven .weld r (travelDirection r.endPos s) false s.tg, ju := u, pli := l }
  refine ⟨u, l', ?_, hl.trans hl', hu⟩
  simp only [startFreshWeld, hp]
  rw [if_pos (by simp [weldTaken, hh, hc, he, hs]), hw]
  rfl

/-- R86, R101: with the clamps open the record closes with CLAMP_OPEN. -/
theorem startFreshWeld_of_open {r : PassRecord} (hh : s.hs.state = .parked) (hc : s.dp.clamp = false) :
    ∃ u l, startFreshWeld r s = clampOpen { s with
        tg := targetGiven .weld r (travelDirection r.endPos s) false s.tg, ju := u, pli := l }
      ∧ LineKeeps s.pli l ∧ JointsStarted r (towards r.start r.endPos s.tg.dir) s u := by
  obtain ⟨u, l, hp, hl, hu⟩ := startFreshWeld_prepares r s
  refine ⟨u, l, ?_, hl, hu⟩
  simp only [startFreshWeld, hp]
  rw [if_neg (by simp [weldTaken, hc]), if_pos ⟨hh, hc⟩]

/-- R86, R89: CLAMP_OPEN ends the chain. -/
theorem clampOpen_ended {p : Nat} (hp : s.tg.p = some p) (h : s.su.lineResetPending = false) :
    ∃ v, Keeps [.su, .pli] s v ∧ LineKeeps s.pli v.pli ∧ v.flag .fault = true ∧ v.su.station = s.su.station
      ∧ Ended ⟨.fault, some .clampOpen⟩ p (remainingDistance s) v (clampOpen s) := by
  have keeps := raise_keeps .fault s
  have tg : (raise .fault s).tg = s.tg := keeps .tg (by decide)
  have px : (raise .fault s).px = s.px := keeps .px (by decide)
  have free : (raise .fault s).freeCount = s.freeCount := keeps .freeCount (by decide)
  have remaining : remainingDistance (raise .fault s) = remainingDistance s := by
    simp only [remainingDistance, positionReached, tg, px, free]
  refine ⟨raise .fault s, keeps, (raise_calm .fault s).line, by simp [State.flag_raise], ?_, ?_⟩
  · obtain ⟨l, he, _⟩ := raise_eq .fault s
    rw [he]
  · rw [← remaining]
    exact closeStopping_ended (by rw [tg]; exact hp) ((raise_calm .fault s).noReset h)

end Sys2Proof.Machine

namespace Sys2Proof.Machine

variable {s t u : State}

/-! ### A held record starts (R82) -/

theorem heldRecordStart_exec {r : PassRecord} (hx : s.px.state = .waitSlot) (hr : s.px.record = some r) :
    exec .heldRecordStart s = .next (settle (startRecord r s)) := by
  show Host.Outcome.next (settle (startHeld s)) = _
  simp only [startHeld, hx, hr]

theorem mustWait_iff {r : PassRecord} (hk : r.kind = some .weld) (hf : s.px.role = .fresh) (hl : r.leadId ≠ 0) :
    mustWait r s = true ↔ 4 ≤ s.ju.openList.length := by
  have cleared : mustWait r s = decide (Config.jointCapacity ≤ s.ju.openList.length) := by simp [mustWait, hk, hf, hl]
  rw [cleared]
  exact decide_eq_true_iff

/-- R81, R82: what a fresh WELD that does not wait does: ESTOP, or its start in ACTIVE. -/
theorem startRecord_of_freshWeld {r : PassRecord} (hk : r.kind = some .weld) (hf : s.px.role = .fresh)
    (hw : mustWait r s = false) :
    ∃ l, LineKeeps s.pli l ∧ startRecord r s = if s.dp.estop then closeStopping ⟨.estop, none⟩ s
      else startFreshWeld r { s with px := { s.px with state := .active }, pli := l } := by
  obtain ⟨l, he, hl⟩ := setExecutor_eq .active s
  refine ⟨l, hl, ?_⟩
  rw [startRecord, if_neg (by simp [hw]), handRecordOn]
  split
  · rfl
  · simp only [he, hk, hf]

theorem remainingDistance_of_weld {r : PassRecord} {p : Nat} (hr : s.px.record = some r) (hk : r.kind = some .weld)
    (hpass : s.px.passed = true) (hp : s.tg.p = some p) : remainingDistance s = distance r.endPos p := by
  simp [remainingDistance, hr, hpass, travelKind_weld hk, positionReached_eq hp]

theorem afterClose_of_no_joint (k : EndKind) {j : JointUnit} (hl : j.currentLead = none) (ha : j.awaited = none) :
    afterClose k j = j := by
  rw [afterClose, openAfterClose_of_no_lead k hl, closedAfterClose, ha]
  cases j
  simp_all

theorem hasPendingLead_of_no_lead {j : JointUnit} (hl : j.currentLead = none) : hasPendingLead j = false := by
  rw [Bool.eq_false_iff]
  intro h
  obtain ⟨_, _, hc, _⟩ := (hasPendingLead_iff _).mp h
  rw [hl] at hc
  cases hc

theorem openAfterClose_eq (k : EndKind) (j : JointUnit) : openAfterClose k j = j.openList.map (closeLead k j) :=
  (List.map_congr_left fun e _ => closeLead_eq k j e).symm

theorem closeLead_id (k : EndKind) (j : JointUnit) (e : OpenJoint) : (closeLead k j e).id = e.id := by
  rw [closeLead_eq]
  split
  · split <;> rfl
  · rfl

/-- R128: the ids of the Open Joint List outlast a record's close. -/
theorem ids_openAfterClose (k : EndKind) (j : JointUnit) :
    (openAfterClose k j).map (fun e => e.id) = j.openList.map (fun e => e.id) := by
  rw [openAfterClose_eq, List.map_map]
  exact List.map_congr_left fun e _ => closeLead_id k j e

/-- R128: the lead entry just created is VOID after an end that is not COMPLETE. -/
theorem lead_void_afterClose {k : EndKind} (hk : k ≠ .complete) {j : JointUnit} {l : List OpenJoint} {x : OpenJoint}
    (hj : j.openList = l ++ [x]) (hx : x.state = .pending) (hl : j.currentLead = some x.id)
    (hn : x.id ∉ l.map (fun e => e.id)) : ∀ e ∈ openAfterClose k j, e.id = x.id → e.state = .void := by
  intro e he hid
  rw [openAfterClose_eq, hj] at he
  obtain ⟨y, hy, rfl⟩ := List.mem_map.mp he
  rw [closeLead_id] at hid
  rcases List.mem_append.mp hy with hy | hy
  · exact absurd (hid ▸ List.mem_map_of_mem hy) hn
  · obtain rfl := List.mem_singleton.mp hy
    rw [closeLead_eq, if_pos ⟨hl, hx⟩, if_neg hk]

theorem Ended.settle {e : Decision} {p d : Nat} (h : Ended e p d s t) : Ended e p d s (settle t) := by
  have kept := h.kept.then (settle_keeps t) (n := [.tg, .px, .ju, .su, .pli]) (by rfl) (by rfl)
  obtain ⟨l, he, hl⟩ := settle_eq t
  rw [he] at kept ⊢
  exact ⟨kept, h.line.trans hl, h.travel, h.joints, h.executor, h.status⟩

/-- Settles O57. -/
theorem heldRecordStarts : Obligations.HeldRecordStarts := by
  intro s r q p hx hr hf hpass hk hl hnew hq htrail haw hh hs hp hreset
  have exec := heldRecordStart_exec hx hr
  refine ⟨fun full quiet => ?_, fun room hestop hclamp => ?_, fun room hestop hclamp => ?_, fun room hestop hlead => ?_⟩
  · have waits : mustWait r s = true := (mustWait_iff hk hf hl).mpr full
    have same : startRecord r s = s := by
      rw [startRecord, if_pos waits, setExecutor, if_pos hx]
    rw [exec, same, settle_of_quiet quiet]
  all_goals
    have goes : mustWait r s = false := eq_false_of_ne_true fun h => absurd ((mustWait_iff hk hf hl).mp h) (by omega)
    obtain ⟨l, line, starts⟩ := startRecord_of_freshWeld hk hf goes
    rw [exec]
  · rw [hestop, if_neg (by decide)] at starts
    obtain ⟨u, l', weld, line', closedList, _, lead, trail, _⟩ :=
      startFreshWeld_of_clamped (s := { s with px := { s.px with state := .active }, pli := l }) (r := r) hh hclamp hestop hs
    obtain ⟨l'', he, hl''⟩ := settle_eq (startRecord r s)
    obtain ⟨current, openList⟩ := lead q hf hl hq
    refine ⟨_, rfl, ?_⟩
    rw [he]
    rw [starts, weld] at hl'' ⊢
    refine ⟨fun x hx => by cases x <;> simp [Part.same] at hx ⊢, (line.trans line').trans hl'', rfl, ?_, openList, current,
      closedList, trail, rfl⟩
    show targetGiven _ _ (travelDirection _ _) _ _ = _
    rw [travelDirection, directionTo_eq_towards, hp]
    rfl
  · rw [hestop, if_neg (by decide)] at starts
    obtain ⟨u, l', weld, line', closedList, _, lead, trail, awaitedId⟩ :=
      startFreshWeld_of_open (s := { s with px := { s.px with state := .active }, pli := l }) (r := r) hh hclamp
    obtain ⟨current, openList⟩ := lead q hf hl hq
    obtain ⟨v, hv⟩ : ∃ v : State, v = { s with
        px := { s.px with state := .active }, ju := u, pli := l'
        tg := targetGiven .weld r (travelDirection r.endPos s) false s.tg } :=
      ⟨_, rfl⟩
    have begun : startRecord r s = clampOpen v := by
      rw [starts, weld, hv]
      rfl
    obtain ⟨w, kept, line2, fault, _, ended⟩ :=
      clampOpen_ended (s := v) (p := p) (by rw [hv]; exact hp) (by rw [hv]; exact hreset)
    have keeps : Keeps [.tg, .px, .ju, .pli] s v := by
      rw [hv]
      exact fun x hx => by cases x <;> simp [Part.same] at hx ⊢
    have line3 : LineKeeps s.pli v.pli := by rw [hv]; exact line.trans line'
    have ju : w.ju = u := (kept .ju (by decide)).trans (by rw [hv])
    have px : w.px = { s.px with state := .active } := (kept .px (by decide)).trans (by rw [hv])
    have remaining : remainingDistance v = distance r.endPos p :=
      remainingDistance_of_weld (by rw [hv]; exact hr) hk (by rw [hv]; exact hpass) (by rw [hv]; exact hp)
    have pendingLead : hasPendingLead u = true := by
      refine (hasPendingLead_iff u).mpr ⟨leadEntry r q (towards r.start r.endPos s.tg.dir), ?_, current, rfl⟩
      rw [openList]
      exact List.mem_append_right _ (List.mem_singleton_self _)
    obtain ⟨kept2, line4, _, joints, executor, status⟩ := ended.settle
    rw [ju] at joints status
    rw [begun]
    refine ⟨_, rfl, (keeps.then kept (n := [.tg, .px, .ju, .su, .pli]) (by rfl) (by rfl)).then kept2 (by rfl) (by rfl),
      (line3.trans line2).trans line4, ?_, ?_, ?_, ?_, ?_, ?_, ?_, ?_, ?_⟩
    · rw [status]
      rfl
    · rw [State.flag, status]
      refine (flag_raisedIf _ _ _ _).trans ?_
      rw [show w.su.flags.getLsbD AttentionFlag.fault.bit = true from fault]
      rfl
    · rw [State.flag, status, pendingLead]
      exact (flag_raised _ _ _).trans (by simp)
    · rw [executor, remaining, executorAfter, executorAfter, px]
      rfl
    · rw [joints]
      rfl
    · rw [joints]
      rfl
    · rw [joints]
      show closedAfterClose u = _
      split
      · next ht => rw [closedAfterClose, trail.1 ht, closedList, show _ = none from haw]
      · next ht =>
        obtain ⟨a, ha, hid⟩ := awaitedId ht (htrail ht)
        rw [closedAfterClose, ha, closedList]
        exact congrArg (fun i => pushClosed i s.ju.closedList) hid
    · rw [joints]
      exact (ids_openAfterClose _ u).trans (by rw [openList, List.map_append]; rfl)
    · rw [joints]
      exact lead_void_afterClose (by decide) openList rfl current hnew
  · rw [hestop, if_pos rfl] at starts
    have ended := (closeStopping_ended (e := ⟨.estop, none⟩) hp hreset).settle
    have same := afterClose_of_no_joint .estop hlead haw
    rw [remainingDistance_of_weld hr hk hpass hp] at ended
    obtain ⟨kept, line, travel, joints, executor, status⟩ := ended
    rw [starts]
    refine ⟨_, rfl, ?_, line, ?_, travel, executor⟩
    · intro x hx
      by_cases hj : x = .ju
      · subst hj
        exact joints.trans same
      · exact kept x (by simp at hx ⊢; exact ⟨hx.1, hx.2.1, hj, hx.2.2⟩)
    · rw [status, hasPendingLead_of_no_lead hlead]
      rfl

end Sys2Proof.Machine

namespace Sys2Proof.Machine

variable {s t u : State}

/-! ### The checks of a fetch (R77, R78) -/

theorem weldDirection_eq_weldHeading (r : PassRecord) (s : State) : weldDirection s.px.role s.tg.dir r = weldHeading s r := by
  unfold weldDirection weldHeading
  split
  · next h => rw [if_pos h, directionTo_eq_towards]
  · next h => rw [if_neg (by rw [h]; decide)]

theorem aheadOf_iff (d : Direction) (a x : Nat) : aheadOf d a x = true ↔ Ahead d a x := by
  cases d <;> simp [aheadOf, Ahead]

theorem travels_iff (k : RecordKind) : travels k = true ↔ k = .weld ∨ k = .dry ∨ k = .move := by
  cases k <;> simp [travels]

theorem hasStart_iff (role : Role) (k : RecordKind) : hasStart role k = true ↔ role = .fresh ∧ (k = .weld ∨ k = .dry) := by
  simp [hasStart]

/-- R51: an OPEN position that `spanOpen` finds lies in the span. -/
theorem open_of_spanOpen {ws : List RegionWindow} {a b : Nat} (h : spanOpen ws a b = true) :
    ∃ x, min a b ≤ x ∧ x ≤ max a b ∧ (decodeRegion ws x).kind = .opening := by
  obtain ⟨x, hx, hk⟩ := List.any_eq_true.mp h
  refine ⟨x, ?_, ?_, eq_of_beq hk⟩
  · rcases List.mem_cons.mp hx with rfl | hx
    · exact le_refl _
    · have := (List.mem_filter.mp hx).2
      simp only [Bool.and_eq_true, decide_eq_true_eq] at this
      exact this.1
  · rcases List.mem_cons.mp hx with rfl | hx
    · exact min_le_max
    · have := (List.mem_filter.mp hx).2
      simp only [Bool.and_eq_true, decide_eq_true_eq] at this
      exact this.2

theorem firstFailure_of_none {l : List (Bool × Detail)} (h : ∀ x ∈ l, x.1 = false) : firstFailure l = none := by
  induction l with
  | nil => rfl
  | cons x l ih =>
    obtain ⟨bad, d⟩ := x
    obtain rfl : bad = false := h _ List.mem_cons_self
    exact ih fun y hy => h y (List.mem_cons_of_mem _ hy)

theorem leadGeometryBad_iff (role : Role) (r : PassRecord) : leadGeometryBad role r = true
    ↔ r.leadId ≠ 0 ∧ (role = .continuation ∨ distance r.endPos r.start < r.release) := by
  simp [leadGeometryBad]

theorem trailGeometryBad_iff (d : Direction) (a : Nat) (r : PassRecord) : trailGeometryBad d a r = true
    ↔ r.trailId ≠ 0 ∧ (¬ (Ahead d a r.entryX ∧ Ahead d r.entryX r.endPos)
      ∨ (d = .up ∧ r.entryX < a + r.standoff) ∨ (d = .down ∧ a < r.entryX + r.standoff)) := by
  cases d <;> simp only [trailGeometryBad, ← aheadOf_iff, Bool.and_eq_true, Bool.or_eq_true, bne_iff_ne, Bool.not_eq_true',
    decide_eq_true_eq, Bool.eq_false_iff, ne_eq, reduceCtorEq, true_and, false_and, or_false, false_or]

/-- R77, R78: a record none of whose checks fails passes the judgement. -/
theorem judgeRecord_of_passes {k : RecordKind} {r : PassRecord} (h : Passes s k r) : judgeRecord s k r = none := by
  have kind : (s.px.role == .continuation && k != .weld) = false := by
    have := h .continueKind (by decide)
    simpa [Fails] using this
  have fields : (!fieldsOk s.px.role k r) = false := by
    have := h .fieldRange (by decide)
    simpa [Fails, ← fieldsOk_iff] using this
  unfold judgeRecord
  split
  · next p hp =>
    have refutes (d : Detail) {b : Bool} (hd : d ∈ checkOrder) (hb : b = true → Fails s k r d) : b = false :=
      Bool.eq_false_iff.mpr fun hbad => h d hd (hb hbad)
    have begins : (if s.px.role == .fresh then r.start else p) = weldFrom s r p := by simp [weldFrom]
    simp only [judgeAt, weldDirection_eq_weldHeading, begins]
    refine firstFailure_of_none ?_
    simp only [List.forall_mem_cons, List.not_mem_nil, false_implies, implies_true, and_true]
    refine ⟨kind, fields, refutes .startMismatch (by decide) fun b => ?_, refutes .zeroLength (by decide) fun b => ?_,
      refutes .direction (by decide) fun b => ?_, refutes .railRange (by decide) fun b => ?_,
      refutes .pathOpen (by decide) fun b => ?_, refutes .jointGeometry (by decide) fun b => ?_,
      refutes .jointPartner (by decide) fun b => ?_, refutes .jointDuplicate (by decide) fun b => ?_,
      refutes .jointReused (by decide) fun b => ?_⟩
    all_goals simp only [Bool.and_eq_true, Bool.or_eq_true, beq_iff_eq, bne_iff_ne, Bool.not_eq_true', decide_eq_true_eq] at b
    · obtain ⟨start, mismatch⟩ := b
      obtain ⟨fresh, hk⟩ := (hasStart_iff _ _).mp start
      exact .inr ⟨p, hp, fresh, hk, mismatch⟩
    · refine ⟨p, hp, b.imp (fun ⟨start, hz⟩ => ?_) (fun ⟨⟨hc, hk⟩, hz⟩ => ⟨hc, hk, hz⟩)⟩
      obtain ⟨fresh, hk⟩ := (hasStart_iff _ _).mp start
      exact ⟨fresh, hk, hz⟩
    · obtain ⟨⟨hc, hk⟩, behind⟩ := b
      exact ⟨p, hp, hc, hk, fun ahead => by rw [(aheadOf_iff _ _ _).mpr ahead] at behind; cases behind⟩
    · exact ⟨(travels_iff k).mp b.1, b.2⟩
    · exact ⟨p, hp, b.1, open_of_spanOpen b.2⟩
    · obtain ⟨hk, bad⟩ := b
      rw [leadGeometryBad_iff, trailGeometryBad_iff] at bad
      refine ⟨p, hp, hk, ?_⟩
      rcases bad with bad | ⟨ht, bad | bad | bad⟩
      · exact .inl bad
      · exact .inr (.inl ⟨ht, bad⟩)
      · exact .inr (.inr (.inl ⟨ht, bad⟩))
      · exact .inr (.inr (.inr ⟨ht, bad⟩))
    · rcases b with ⟨⟨hk, hl⟩, hn⟩ | ⟨⟨hk, ht⟩, hn⟩
      · exact ⟨hk, .inl ⟨hl, Option.isNone_iff_eq_none.mp hn⟩⟩
      · exact ⟨hk, .inr ⟨ht, Option.isNone_iff_eq_none.mp hn⟩⟩
    · obtain ⟨⟨hk, hl⟩, hd⟩ := b
      obtain ⟨e, he, hid⟩ := List.any_eq_true.mp hd
      exact ⟨hk, hl, List.mem_map.mpr ⟨e, he, eq_of_beq hid⟩⟩
    · rcases b with ⟨⟨hk, hl⟩, hd⟩ | ⟨⟨hk, ht⟩, hd⟩
      · obtain ⟨q, hq, hc⟩ := (Option.any_eq_true _ _).mp hd
        exact ⟨hk, .inl ⟨hl, q, hq, List.contains_iff_mem.mp hc⟩⟩
      · exact ⟨hk, .inr ⟨ht, List.contains_iff_mem.mp hd⟩⟩
  · next hp =>
    refine firstFailure_of_none ?_
    have place : travels k = false := by
      rw [Bool.eq_false_iff]
      exact fun ht => h .startMismatch (by decide) (.inl ⟨hp, (travels_iff k).mp ht ⟩)
    simp only [List.forall_mem_cons, kind, fields, place, List.not_mem_nil, false_implies, implies_true, and_self]

/-! ### The fetch ends with a record that passes (R76, R81) -/

theorem branches_of_target {r : PassRecord} {i : Nat} (h : WorksFrom s r i) :
    (¬ Branches s ∧ s.px.record = some r ∧ r.kind ≠ some .branch ∧ i = s.px.index)
      ∨ (Branches s ∧ s.px.firstRecord = false ∧ i ≤ 511 ∧ r = readRecord s.pm i
        ∧ ∃ b, s.px.record = some b ∧ b.kind = some .branch ∧ b.rate = i) := by
  rcases h with ⟨hr, hk, hi⟩ | ⟨hf, ⟨b, hb, hk, hi⟩, hle, hr⟩
  · refine .inl ⟨?_, hr, hk, hi⟩
    rintro ⟨b, hb, hbk⟩
    obtain rfl := Option.some.inj (hr.symm.trans hb)
    exact hk hbk
  · exact .inr ⟨⟨b, hb, hk⟩, hf, hle, hr, b, hb, hk, hi⟩

/-- R76, R183: the Status Unit when the fetch ends: NOTIFY of a BRANCH's target has been acted on. -/
def fetchNoticed (r : PassRecord) (i : Nat) (s : State) (u : StatusUnit) : Prop :=
  (Branches s → u = noticed r i s.su) ∧ (¬ Branches s → u = s.su)

/-- R76: a BRANCH is followed to a target that is none. -/
theorem followBranch_of_worker {b : PassRecord} {k : RecordKind} (hle : b.rate ≤ 511)
    (hk : (readRecord s.pm b.rate).kind = some k) (hb : k ≠ .branch) :
    ∃ l, followBranch b s = judgeAndStart k (readRecord s.pm b.rate) { s with
        px := { s.px with index := b.rate, record := some (readRecord s.pm b.rate) }
        su := noticed (readRecord s.pm b.rate) b.rate s.su, pli := l } ∧ LineKeeps s.pli l := by
  obtain ⟨l, hi, hl⟩ := setIndex_eq b.rate s
  obtain ⟨l', hn, hl'⟩ := notifyFetch_eq (readRecord s.pm b.rate) { s with
    px := { s.px with index := b.rate, record := some (readRecord s.pm b.rate) }, pli := l }
  refine ⟨l', ?_, hl.trans hl'⟩
  unfold followBranch
  rw [if_neg (Nat.not_lt.mpr hle), hi]
  simp only [State.withPx]
  rw [hn]
  cases k with
  | branch => exact absurd rfl hb
  | _ => simp only [hk]

/-- R76: the record that does the work is judged, and starts if it passes. -/
theorem completeFetch_of_worksFrom {r : PassRecord} {i : Nat} {k : RecordKind} (hw : WorksFrom s r i) (hk : r.kind = some k)
    (hb : k ≠ .branch) :
    ∃ u l, completeFetch s = judgeAndStart k r { s with
        px := { s.px with index := i, firstRecord := false, record := some r }, su := u, pli := l }
      ∧ LineKeeps s.pli l ∧ fetchNoticed r i s u := by
  rcases branches_of_target hw with ⟨hn, hr, -, rfl⟩ | ⟨hyes, hf, hle, rfl, b, hr, hbk, rfl⟩
  · refine ⟨s.su, s.pli, ?_, rfl, fun h => absurd h hn, fun _ => rfl⟩
    rw [← hr]
    unfold completeFetch
    extract_lets first x v
    have inHand : v.px.record = some r := hr
    rw [inHand]
    cases k with
    | branch => exact absurd rfl hb
    | _ => simp only [hk]; rfl
  · obtain ⟨l, hfollow, hl⟩ := followBranch_of_worker (s := s.withPx { s.px with firstRecord := false }) hle hk hb
    refine ⟨_, l, ?_, hl, fun _ => rfl, fun h => absurd hyes h⟩
    have follows : completeFetch s = followBranch b (s.withPx { s.px with firstRecord := false }) := by
      unfold completeFetch
      extract_lets first x v
      rw [show v.px.record = some b from hr]
      simp only [hbk, show first = false from hf]
      rfl
    rw [follows, hfollow]
    rfl

/-- R77, R81: a record that passes its checks starts when its fetch ends. -/
theorem completeFetch_of_passes {r : PassRecord} {i : Nat} {k : RecordKind} (hw : WorksFrom s r i) (hk : r.kind = some k)
    (hb : k ≠ .branch) (h : Passes s k r) :
    ∃ u l, completeFetch s = startRecord r { s with px := recordPassed s.px.state k r i s, su := u, pli := l }
      ∧ LineKeeps s.pli l ∧ fetchNoticed r i s u := by
  obtain ⟨u, l, he, hl, hu⟩ := completeFetch_of_worksFrom hw hk hb
  refine ⟨u, l, ?_, hl, hu⟩
  have passes : judgeRecord { s with
      px := { s.px with index := i, firstRecord := false, record := some r }, su := u, pli := l } k r = none :=
    judgeRecord_of_passes h
  rw [he, judgeAndStart, passes]
  simp only [recordPasses, weldDirection_eq_weldHeading]
  rfl

end Sys2Proof.Machine

namespace Sys2Proof.Machine

variable {s t u v : State}

/-! ### A record that has passed its fetch starts (R81, R82, R102) -/

/-- R81: an ACTIVE record is handed on, by kind and role. -/
def handedOn (r : PassRecord) (s : State) : State :=
  match r.kind with
  | some .move => startTravel .move r s
  | some .dry => startTravel .dry r s
  | some .pause => startPause r s
  | some .weld =>
    match s.px.role with
    | .fresh => startFreshWeld r s
    | .continuation => startContinuation r s
  | _ => s

/-- R81: with the emergency-stop line released the record is ACTIVE and handed on. -/
theorem startRecord_of_released {r : PassRecord} (hw : mustWait r s = false) (he : s.dp.estop = false) :
    ∃ l, LineKeeps s.pli l ∧ startRecord r s = handedOn r { s with px := { s.px with state := .active }, pli := l } := by
  obtain ⟨l, ha, hl⟩ := setExecutor_eq .active s
  refine ⟨l, hl, ?_⟩
  rw [startRecord, if_neg (by simp [hw]), handRecordOn, if_neg (by simp [he]), ha]
  rfl

theorem startRecord_of_estop {r : PassRecord} (hw : mustWait r s = false) (he : s.dp.estop = true) :
    startRecord r s = closeStopping ⟨.estop, none⟩ s := by
  rw [startRecord, if_neg (by simp [hw]), handRecordOn, if_pos he]

/-- R22, R81: the target given and the travel phase open. -/
theorem startTravel_eq (k : TravelKind) (r : PassRecord) {p : Nat} (hp : s.tg.p = some p) :
    startTravel k r s = { s with tg := targetGiven k r (towards p r.endPos s.tg.dir) true s.tg } := by
  simp only [startTravel, travelDirection, hp, Option.getD_some, directionTo_eq_towards]
  rfl

/-- R81, R102: a continuation's target, trail part and parameters. -/
theorem startContinuation_eq {r : PassRecord} {w : WeldParams} (hr : s.px.role = .continuation) (hh : s.hs.state = .stirring)
    (hw : s.hs.weld = some w) :
    ∃ u l, startContinuation r s = { s with
        tg := targetGiven .weld r s.tg.dir true s.tg, ju := u, pli := l
        hs := { s.hs with spindle := r.rpm, weld := some { w with rpm := r.rpm, setpoint := r.setpoint, cont := r.cont } } }
      ∧ LineKeeps s.pli l ∧ u.closedList = s.ju.closedList ∧ u.openList = s.ju.openList
      ∧ u.currentLead = s.ju.currentLead ∧ Awaits r s.px.trailPartner s.tg.dir s u.awaited := by
  obtain ⟨u, l, he, hl, hu⟩ := startJoints_eq r s.tg.dir (giveTarget ⟨.weld, r.endPos, r.rate⟩ s.tg.dir true s)
  obtain ⟨openList, currentLead⟩ := hu.noLead (.inr hr)
  refine ⟨u, l, ?_, hl, hu.closedList, openList, currentLead, hu.trail⟩
  simp only [startContinuation, he, continueWeld, show (giveTarget _ _ _ s).hs = s.hs from rfl, hh, hw]
  rfl

/-! ### What a start leaves of the Status Unit (R81) -/

theorem closeStopping_notifyIndex (e : Decision) (h : s.su.lineResetPending = false) :
    (closeStopping e s).su.notifyIndex = s.su.notifyIndex := by
  obtain ⟨l, he, _⟩ := closeStopping_eq e s h
  rw [he]

theorem clampOpen_notifyIndex (h : s.su.lineResetPending = false) : (clampOpen s).su.notifyIndex = s.su.notifyIndex := by
  rw [clampOpen, closeStopping_notifyIndex _ ((raise_calm .fault s).noReset h)]
  obtain ⟨l, he, _⟩ := raise_eq .fault s
  rw [he]

theorem startFreshWeld_notifyIndex (r : PassRecord) (h : s.su.lineResetPending = false) :
    (startFreshWeld r s).su.notifyIndex = s.su.notifyIndex := by
  obtain ⟨u, l, hp, -, -⟩ := startFreshWeld_prepares r s
  simp only [startFreshWeld, hp]
  split
  · exact congrArg StatusUnit.notifyIndex (spinUp_keeps _ _ .su (by simp))
  · split
    · exact clampOpen_notifyIndex (by exact h)
    · rfl

theorem startContinuation_notifyIndex (r : PassRecord) (s : State) :
    (startContinuation r s).su.notifyIndex = s.su.notifyIndex :=
  congrArg StatusUnit.notifyIndex (startContinuation_keeps r s .su (by simp))

/-- R183: a start acts on no NOTIFY. -/
theorem startRecord_notifyIndex (r : PassRecord) (h : s.su.lineResetPending = false) :
    (startRecord r s).su.notifyIndex = s.su.notifyIndex := by
  by_cases hw : mustWait r s = true
  · rw [startRecord, if_pos hw]
    exact congrArg StatusUnit.notifyIndex (setExecutor_keeps .waitSlot s .su (by simp))
  · have hw := eq_false_of_ne_true hw
    by_cases he : s.dp.estop = true
    · rw [startRecord_of_estop hw he, closeStopping_notifyIndex _ h]
    · obtain ⟨l, -, hs⟩ := startRecord_of_released hw (eq_false_of_ne_true he)
      rw [hs]
      unfold handedOn
      split
      · rfl
      · rfl
      · rfl
      · split
        · exact startFreshWeld_notifyIndex r (by exact h)
        · exact startContinuation_notifyIndex r _
      · rfl

theorem startRecord_calm (r : PassRecord) (h : s.su.lineResetPending = false) :
    Calm [.fault, .jointVoided] s (startRecord r s) := by
  unfold startRecord
  split
  · exact (setExecutor_calm _ s).mono (by simp)
  · exact handRecordOn_calm r h

/-! ### The record that has passed -/

theorem fetchNoticed_flags {r : PassRecord} {i : Nat} {x : StatusUnit} (h : fetchNoticed r i s x) (f : AttentionFlag)
    (hf : f ≠ .notify) : x.flags.getLsbD f.bit = s.flag f := by
  by_cases hb : Branches s
  · rw [h.1 hb]
    exact (flag_raisedIf _ _ _ _).trans (by simp [hf, State.flag])
  · rw [h.2 hb]
    rfl

/-- The Status Unit of a fetch that ends, but for flags and NOTIFY index. -/
theorem fetchNoticed_rest {r : PassRecord} {i : Nat} {x : StatusUnit} (h : fetchNoticed r i s x) :
    { x with flags := s.su.flags, notifyIndex := s.su.notifyIndex } = s.su := by
  by_cases hb : Branches s
  · rw [h.1 hb]
    rfl
  · rw [h.2 hb]

/-- The state in which a record that has passed its fetch starts. -/
def fetchPassed (k : RecordKind) (r : PassRecord) (i : Nat) (x : StatusUnit) (l : PeerLine) (s : State) : State :=
  { s with px := recordPassed s.px.state k r i s, su := x, pli := l }

section
variable {k : RecordKind} {r : PassRecord} {i : Nat} {x : StatusUnit} {l : PeerLine}

theorem fetchPassed_noReset (h : fetchNoticed r i s x) (hs : s.su.lineResetPending = false) :
    (fetchPassed k r i x l s).su.lineResetPending = false := by
  have := congrArg StatusUnit.lineResetPending (fetchNoticed_rest h)
  exact this.trans hs

/-- R75, R76, R183: NOTIFY of a BRANCH's target has been acted on, and of no other record. -/
theorem fetchPassed_notified (h : fetchNoticed r i s x) (hs : s.su.lineResetPending = false) :
    (Branches s → (startRecord r (fetchPassed k r i x l s)).su.notifyIndex = (if r.notify then some i else s.su.notifyIndex)
        ∧ (startRecord r (fetchPassed k r i x l s)).flag .notify = (s.flag .notify || r.notify))
      ∧ (¬ Branches s → (startRecord r (fetchPassed k r i x l s)).su.notifyIndex = s.su.notifyIndex
        ∧ (startRecord r (fetchPassed k r i x l s)).flag .notify = s.flag .notify) := by
  have noReset := fetchPassed_noReset (k := k) (l := l) h hs
  rw [startRecord_notifyIndex r noReset, (startRecord_calm r noReset).flags .notify (by simp)]
  refine ⟨fun hb => ?_, fun hb => ?_⟩
  · rw [State.flag, show (fetchPassed k r i x l s).su = noticed r i s.su from h.1 hb]
    refine ⟨rfl, (flag_raisedIf _ _ _ _).trans ?_⟩
    simp [State.flag]
  · rw [State.flag, show (fetchPassed k r i x l s).su = s.su from h.2 hb]
    exact ⟨rfl, rfl⟩

/-- R82: with the list full a fresh WELD with a lead part waits. -/
theorem fetchPassed_waits (h : fetchNoticed r i s x)
    (hw : mustWait r (fetchPassed k r i x l s) = true) :
    let t := settle (startRecord r (fetchPassed k r i x l s))
    Keeps [.px, .su, .pli] s t ∧ FlagsKeep [.notify] s { t with su := { t.su with notifyIndex := s.su.notifyIndex } }
      ∧ t.px = recordPassed .waitSlot k r i s := by
  obtain ⟨l', he, _⟩ := setExecutor_eq .waitSlot (fetchPassed k r i x l s)
  obtain ⟨l'', hs, _⟩ := settle_eq (startRecord r (fetchPassed k r i x l s))
  intro t
  have ends : t = { fetchPassed k r i x l s with px := recordPassed .waitSlot k r i s, pli := l'' } := by
    rw [show t = _ from hs, startRecord, if_pos hw, he]
    rfl
  rw [ends]
  refine ⟨fun y hy => by cases y <;> simp [Part.same, fetchPassed] at hy ⊢, ⟨fun f hf => ?_, ?_⟩, rfl⟩
  · have flag := fetchNoticed_flags h f (by simpa using hf)
    exact flag
  · have rest := fetchNoticed_rest h
    exact rest

theorem fetchPassed_place (k : RecordKind) (r : PassRecord) (i : Nat) (x : StatusUnit) (l : PeerLine) (s : State) :
    (∀ p, s.tg.p = some p → positionReached (fetchPassed k r i x l s) = p) :=
  fun _ hp => positionReached_eq hp

/-- R91: the remaining distance of a record that has passed. -/
theorem fetchPassed_remaining (hk : r.kind = some k) (hb : k ≠ .branch) :
    remainingDistance (fetchPassed k r i x l s)
      = if k = .pause then 0 else distance r.endPos (positionReached (fetchPassed k r i x l s)) := by
  unfold remainingDistance
  rw [show (fetchPassed k r i x l s).px.record = some r from rfl, show (fetchPassed k r i x l s).px.passed = true from rfl]
  cases k with
  | branch => exact absurd rfl hb
  | _ => simp [PassRecord.travelKind, hk]

/-- R81, R88: with the emergency-stop line asserted the chain ends with ESTOP. -/
theorem fetchPassed_estop (h : fetchNoticed r i s x) (hs : s.su.lineResetPending = false) (hk : r.kind = some k)
    (hb : k ≠ .branch) (hw : mustWait r (fetchPassed k r i x l s) = false) (he : s.dp.estop = true) :
    let t := settle (startRecord r (fetchPassed k r i x l s))
    t.su.station = .stopped
      ∧ ∃ y, (∀ p, s.tg.p = some p → y = p)
        ∧ t.px = executorAfter .stopped ⟨.estop, none⟩ s.px.secondary y (if k = .pause then 0 else distance r.endPos y)
            { s with px := { s.px with index := i } } := by
  obtain ⟨l', hc, _⟩ := closeStopping_eq ⟨.estop, none⟩ (fetchPassed k r i x l s) (fetchPassed_noReset h hs)
  obtain ⟨l'', he', _⟩ := settle_eq (startRecord r (fetchPassed k r i x l s))
  intro t
  rw [show t = _ from he', startRecord_of_estop hw he, hc]
  refine ⟨rfl, positionReached (fetchPassed k r i x l s), fetchPassed_place k r i x l s, ?_⟩
  rw [← fetchPassed_remaining hk hb]
  rfl

end

end Sys2Proof.Machine

namespace Sys2Proof.Machine

variable {s t u v : State}

/-! ### Each kind starts (R22, R81, R101, R102) -/

section
variable {k : RecordKind} {r : PassRecord} {i : Nat} {x : StatusUnit} {l : PeerLine}

/-- R81: with the line released the record that has passed is ACTIVE. -/
theorem fetchPassed_released (hw : mustWait r (fetchPassed k r i x l s) = false) (he : s.dp.estop = false) :
    ∃ l', LineKeeps l l' ∧ startRecord r (fetchPassed k r i x l s)
      = handedOn r { s with px := recordPassed .active k r i s, su := x, pli := l' } := by
  obtain ⟨l', hl, hs⟩ := startRecord_of_released hw (by exact he)
  exact ⟨l', hl, hs⟩

/-- What a start that keeps to these parts leaves, the event over. -/
theorem settled_start {y : State} (h : u = y) :
    ∃ l', settle u = { y with pli := l' } ∧ LineKeeps y.pli l' := by
  rw [h]
  exact settle_eq y

theorem travel_starts {p : Nat} (hk : r.kind = some k) (hm : k = .move ∨ k = .dry) (hp : s.tg.p = some p)
    (hw : mustWait r (fetchPassed k r i x l s) = false) (he : s.dp.estop = false) :
    let t := settle (startRecord r (fetchPassed k r i x l s))
    Keeps [.tg, .px, .su, .pli] s t ∧ t.px = recordPassed .active k r i s
      ∧ t.tg = targetGiven (if k = .move then .move else .dry) r (towards p r.endPos s.tg.dir) true s.tg := by
  obtain ⟨l', -, hs⟩ := fetchPassed_released hw he
  have begun : handedOn r { s with px := recordPassed .active k r i s, su := x, pli := l' } = { s with
      px := recordPassed .active k r i s, su := x, pli := l'
      tg := targetGiven (if k = .move then .move else .dry) r (towards p r.endPos s.tg.dir) true s.tg } := by
    rcases hm with rfl | rfl
    · simp only [handedOn, hk]
      exact startTravel_eq .move r (by exact hp)
    · simp only [handedOn, hk]
      exact startTravel_eq .dry r (by exact hp)
  obtain ⟨l'', ht, -⟩ := settled_start (hs.trans begun)
  intro t
  rw [show t = _ from ht]
  exact ⟨fun y hy => by cases y <;> simp [Part.same] at hy ⊢, rfl, rfl⟩

theorem pause_starts (hk : r.kind = some .pause)
    (hw : mustWait r (fetchPassed .pause r i x l s) = false) (he : s.dp.estop = false) :
    let t := settle (startRecord r (fetchPassed .pause r i x l s))
    Keeps [.tg, .px, .su, .pli] s t ∧ t.tg = { s.tg with stallCount := 0 }
      ∧ t.px = { recordPassed .active .pause r i s with pauseCount := r.rate } := by
  obtain ⟨l', -, hs⟩ := fetchPassed_released hw he
  have begun : handedOn r { s with px := recordPassed .active .pause r i s, su := x, pli := l' } = { s with
      px := { recordPassed .active .pause r i s with pauseCount := r.rate }, su := x, pli := l'
      tg := { s.tg with stallCount := 0 } } := by
    simp only [handedOn, hk]
    rfl
  obtain ⟨l'', ht, -⟩ := settled_start (hs.trans begun)
  intro t
  rw [show t = _ from ht]
  exact ⟨fun y hy => by cases y <;> simp [Part.same] at hy ⊢, rfl, rfl⟩

/-- R78: a fresh WELD that passes starts where the carriage stands. -/
theorem start_of_passes (h : Passes s k r) (hf : s.px.role = .fresh) (hk : k = .weld ∨ k = .dry) : s.tg.p = some r.start := by
  have ok := h .startMismatch (by decide)
  cases hp : s.tg.p with
  | none => exact absurd (.inl ⟨hp, hk.elim .inl (fun h => .inr (.inl h))⟩) ok
  | some p =>
    by_cases he : r.start = p
    · rw [he]
    · exact absurd (.inr ⟨p, hp, hf, hk, he⟩) ok

theorem Awaits.congr {q q' : Option Rank} {d : Direction} {a : Option AwaitedJoint} (h : Awaits r q d s a)
    (hq : r.trailId ≠ 0 → q = q') (hj : s.ju.awaited = u.ju.awaited) (hn : s.nt = u.nt) : Awaits r q' d u a := by
  refine ⟨fun ht => (h.1 ht).trans hj, fun ht y hy => ?_⟩
  have := h.2 ht y ((hq ht).trans hy)
  rw [show filedOpen u y = filedOpen s y by simp only [filedOpen, hn]]
  exact this

theorem weldHeading_of_fresh (r : PassRecord) (hf : s.px.role = .fresh) : weldHeading s r = towards r.start r.endPos s.tg.dir :=
  if_pos hf

theorem weldHeading_of_continuation (r : PassRecord) (hf : s.px.role = .continuation) : weldHeading s r = s.tg.dir :=
  if_neg (by rw [hf]; decide)

theorem trailPartner_recordPassed (y : ExecutorState) (ht : r.trailId ≠ 0) :
    (recordPassed y .weld r i s).trailPartner = rankAhead s (weldHeading s r) := if_pos ⟨rfl, ht⟩

theorem leadPartner_recordPassed (y : ExecutorState) (hl : r.leadId ≠ 0) :
    (recordPassed y .weld r i s).leadPartner = rankBehind s (weldHeading s r) := if_pos ⟨rfl, hl⟩

/-- R81, R101, R125, R131: a fresh WELD with the clamps made. -/
theorem weld_starts (hk : r.kind = some .weld) (hf : s.px.role = .fresh) (hp : s.tg.p = some r.start)
    (hh : s.hs.state = .parked) (hc : s.dp.clamp = true) (hst : x.station = .running)
    (hw : mustWait r (fetchPassed .weld r i x l s) = false) (he : s.dp.estop = false) :
    let t := settle (startRecord r (fetchPassed .weld r i x l s))
    Keeps [.tg, .px, .hs, .ju, .su, .pli] s t ∧ t.px = recordPassed .active .weld r i s
      ∧ t.tg = targetGiven .weld r (towards r.start r.endPos s.tg.dir) false s.tg ∧ t.hs = headBegun r s.hs
      ∧ t.ju.closedList = s.ju.closedList
      ∧ (r.leadId = 0 → t.ju.openList = s.ju.openList ∧ t.ju.currentLead = s.ju.currentLead)
      ∧ (∀ q, r.leadId ≠ 0 → rankBehind s (weldHeading s r) = some q → t.ju.currentLead = some r.leadId
        ∧ t.ju.openList = s.ju.openList ++ [leadEntry r q (weldHeading s r)])
      ∧ Awaits r (rankAhead s (weldHeading s r)) (weldHeading s r) s t.ju.awaited := by
  obtain ⟨l', -, hs⟩ := fetchPassed_released hw he
  obtain ⟨v, hv⟩ : ∃ v : State, v = { s with px := recordPassed .active .weld r i s, su := x, pli := l' } := ⟨_, rfl⟩
  have begun : handedOn r v = startFreshWeld r v := by
    have role : v.px.role = .fresh := by rw [hv]; exact hf
    simp only [handedOn, hk, role]
  obtain ⟨j, l'', weld, -, closedList, noLead, lead, trail, -⟩ :=
    startFreshWeld_of_clamped (s := v) (r := r) (by rw [hv]; exact hh) (by rw [hv]; exact hc) (by rw [hv]; exact he)
      (by rw [hv]; exact hst)
  rw [← hv] at hs
  obtain ⟨l3, ht, -⟩ := settled_start ((hs.trans begun).trans weld)
  have heading := weldHeading_of_fresh r hf
  intro t
  rw [show t = _ from ht, heading]
  rw [hv] at closedList noLead lead trail ⊢
  refine ⟨fun y hy => by cases y <;> simp [Part.same] at hy ⊢, rfl, ?_, rfl, closedList, fun h => noLead (.inl h),
    fun q hl hq => lead q hf hl ((leadPartner_recordPassed _ hl).trans (by rw [heading]; exact hq)),
    trail.congr (fun ht => (trailPartner_recordPassed _ ht).trans (by rw [heading])) rfl rfl⟩
  show targetGiven _ _ (travelDirection _ _) _ _ = _
  rw [travelDirection, directionTo_eq_towards, hp]
  rfl

/-- R86, R101: a fresh WELD with the clamps open closes with CLAMP_OPEN. -/
theorem weld_finds_clamps_open {p : Nat} (h : fetchNoticed r i s x) (hreset : s.su.lineResetPending = false)
    (hk : r.kind = some .weld) (hf : s.px.role = .fresh) (hp : s.tg.p = some p)
    (hh : s.hs.state = .parked) (hc : s.dp.clamp = false)
    (hw : mustWait r (fetchPassed .weld r i x l s) = false) (he : s.dp.estop = false) :
    let t := settle (startRecord r (fetchPassed .weld r i x l s))
    t.hs = s.hs ∧ t.su.station = .stopped ∧ t.flag .fault = true
      ∧ t.px = executorAfter .stopped ⟨.fault, some .clampOpen⟩ s.px.secondary p (distance r.endPos p)
          { s with px := { s.px with index := i } } := by
  obtain ⟨l', -, hs⟩ := fetchPassed_released hw he
  obtain ⟨v, hv⟩ : ∃ v : State, v = { s with px := recordPassed .active .weld r i s, su := x, pli := l' } := ⟨_, rfl⟩
  have begun : handedOn r v = startFreshWeld r v := by
    have role : v.px.role = .fresh := by rw [hv]; exact hf
    simp only [handedOn, hk, role]
  obtain ⟨j, l'', weld, -, -⟩ := startFreshWeld_of_open (s := v) (r := r) (by rw [hv]; exact hh) (by rw [hv]; exact hc)
  obtain ⟨w, hw'⟩ : ∃ w : State, w = { v with
    tg := targetGiven .weld r (travelDirection r.endPos v) false v.tg, ju := j, pli := l'' } := ⟨_, rfl⟩
  rw [← hw'] at weld
  rw [← hv] at hs
  have px : w.px = recordPassed .active .weld r i s := by rw [hw', hv]
  have place : w.tg.p = some p := by rw [hw', hv]; exact hp
  have noReset : w.su.lineResetPending = false := by
    rw [hw', hv]
    exact fetchPassed_noReset (k := .weld) (l := l) h hreset
  obtain ⟨y, kept, -, fault, -, ended⟩ := clampOpen_ended place noReset
  have remaining : remainingDistance w = distance r.endPos p :=
    remainingDistance_of_weld (by rw [px]; rfl) hk (by rw [px]; rfl) place
  obtain ⟨kept2, -, -, -, executor, status⟩ := ended.settle
  intro t
  rw [show t = settle (clampOpen w) by rw [← weld, ← begun, ← hs]]
  refine ⟨?_, ?_, ?_, ?_⟩
  · rw [kept2 .hs (by decide), kept .hs (by decide), hw', hv]
  · rw [status]
    rfl
  · rw [State.flag, status]
    refine (flag_raisedIf _ _ _ _).trans ?_
    rw [show y.su.flags.getLsbD AttentionFlag.fault.bit = true from fault]
    rfl
  · rw [executor, remaining, executorAfter, executorAfter, (kept .px (by decide) : y.px = w.px), px]
    rfl

/-- R81, R102: a continuation. -/
theorem continuation_starts {w : WeldParams} (hk : r.kind = some .weld) (hf : s.px.role = .continuation)
    (hh : s.hs.state = .stirring) (hwd : s.hs.weld = some w)
    (hw : mustWait r (fetchPassed .weld r i x l s) = false) (he : s.dp.estop = false) :
    let t := settle (startRecord r (fetchPassed .weld r i x l s))
    Keeps [.tg, .px, .hs, .ju, .su, .pli] s t ∧ t.px = recordPassed .active .weld r i s
      ∧ t.tg = targetGiven .weld r s.tg.dir true s.tg
      ∧ t.hs = { s.hs with
          spindle := r.rpm, weld := some { w with rpm := r.rpm, setpoint := r.setpoint, cont := r.cont } }
      ∧ t.ju.closedList = s.ju.closedList ∧ t.ju.openList = s.ju.openList ∧ t.ju.currentLead = s.ju.currentLead
      ∧ Awaits r (rankAhead s s.tg.dir) s.tg.dir s t.ju.awaited := by
  obtain ⟨l', -, hs⟩ := fetchPassed_released hw he
  obtain ⟨v, hv⟩ : ∃ v : State, v = { s with px := recordPassed .active .weld r i s, su := x, pli := l' } := ⟨_, rfl⟩
  have role : v.px.role = .continuation := by rw [hv]; exact hf
  have begun : handedOn r v = startContinuation r v := by simp only [handedOn, hk, role]
  obtain ⟨j, l'', weld, -, closedList, openList, currentLead, trail⟩ :=
    startContinuation_eq (s := v) (r := r) role (by rw [hv]; exact hh) (by rw [hv]; exact hwd)
  rw [← hv] at hs
  obtain ⟨l3, ht, -⟩ := settled_start ((hs.trans begun).trans weld)
  intro t
  rw [show t = _ from ht]
  rw [hv] at closedList openList currentLead trail ⊢
  exact ⟨fun y hy => by cases y <;> simp [Part.same] at hy ⊢, rfl, rfl, rfl, closedList, openList, currentLead,
    trail.congr (fun ht => (trailPartner_recordPassed _ ht).trans (by rw [weldHeading_of_continuation r hf])) rfl rfl⟩

end

/-! ### The fetch ends (R76, R81) -/

theorem recordClose_of_fetching (h : s.px.state = .fetching) : exec .recordClose s = .next (settle (completeFetch s)) := by
  show Host.Outcome.next (settle (executorCloses s)) = _
  simp [executorCloses, waitingForRest, h]

theorem mustWait_fetchPassed_iff {k : RecordKind} {r : PassRecord} {i : Nat} {x : StatusUnit} {l : PeerLine}
    (hk : r.kind = some k) : mustWait r (fetchPassed k r i x l s) = true
      ↔ k = .weld ∧ s.px.role = .fresh ∧ r.leadId ≠ 0 ∧ 4 ≤ s.ju.openList.length := by
  have whole : mustWait r (fetchPassed k r i x l s)
      = (some k == some .weld && s.px.role == .fresh && r.leadId != 0 && decide (4 ≤ s.ju.openList.length)) := by
    rw [← hk]
    rfl
  rw [whole]
  simp [and_assoc]

/-- Settles O55. -/
theorem recordStarts : Obligations.RecordStarts := by
  intro s r i k hx hworks hk hb hpasses hreset
  obtain ⟨x, l, hc, line, noticed⟩ := completeFetch_of_passes hworks hk hb hpasses
  have noReset := fetchPassed_noReset (k := k) (r := r) (i := i) (l := l) noticed hreset
  obtain ⟨l', hs, hl'⟩ := settle_eq (startRecord r (fetchPassed k r i x l s))
  have su : (settle (startRecord r (fetchPassed k r i x l s))).su = (startRecord r (fetchPassed k r i x l s)).su := by rw [hs]
  obtain ⟨yes, no⟩ := fetchPassed_notified (k := k) (l := l) noticed hreset
  refine ⟨settle (startRecord r (fetchPassed k r i x l s)), ?_, ?_, ?_, ?_, fun hw => ?_, fun hw => ?_⟩
  · rw [recordClose_of_fetching hx, hc]
    rfl
  · rw [hs]
    exact (line.trans (startRecord_calm r noReset).line).trans hl'
  · intro h
    rw [State.flag, su]
    exact yes h
  · intro h
    rw [State.flag, su]
    exact no h
  · exact fetchPassed_waits noticed ((mustWait_fetchPassed_iff hk).mpr hw)
  · have goes : mustWait r (fetchPassed k r i x l s) = false :=
      eq_false_of_ne_true fun h => hw ((mustWait_fetchPassed_iff hk).mp h)
    refine ⟨fetchPassed_estop noticed hreset hk hb goes, fun he => ⟨fun hm p hp => travel_starts hk hm hp goes he,
      ?_, ?_, ?_, ?_⟩⟩
    · rintro rfl
      exact pause_starts hk goes he
    · rintro rfl hf hh hclamp hrun
      have station := congrArg StatusUnit.station (fetchNoticed_rest noticed)
      exact weld_starts hk hf (start_of_passes hpasses hf (.inl rfl)) hh hclamp (station.trans hrun) goes he
    · rintro p rfl hf hh hclamp hp
      exact weld_finds_clamps_open noticed hreset hk hf hp hh hclamp goes he
    · rintro w rfl hf hh hwd
      exact continuation_starts hk hf hh hwd goes he

end Sys2Proof.Machine

namespace Sys2Proof.Machine

variable {s t u v : State}

/-! ### The values of a LINE RESET (R167) -/

/-- `u` has come from `s` by what a LINE RESET clears: it agrees with `s` in all that the reset keeps. -/
structure ResetSource (s u : State) : Prop where
  kept : Keeps [.constants, .nt, .tg, .px, .hs, .ju, .dp, .su, .freeCount, .pli] s u
  place : u.tg.p = s.tg.p
  head : u.hs.state = s.hs.state
  depth : u.hs.zCommand = s.hs.zCommand
  force : u.hs.force = s.hs.force
  forceAge : u.hs.forceAge = s.hs.forceAge
  port : { u.dp with enable := false, lostReported := false, driveReported := false }
    = { s.dp with enable := false, lostReported := false, driveReported := false }
  line : u.pli.transmitting = s.pli.transmitting

theorem ResetSource.refl (s : State) : ResetSource s s := ⟨Keeps.refl _ s, rfl, rfl, rfl, rfl, rfl, rfl, rfl⟩

theorem ResetSource.trans (h : ResetSource s t) (k : ResetSource t u) : ResetSource s u :=
  ⟨h.kept.trans k.kept, k.place.trans h.place, k.head.trans h.head, k.depth.trans h.depth, k.force.trans h.force,
    k.forceAge.trans h.forceAge, k.port.trans h.port, k.line.trans h.line⟩

theorem LineKeeps.transmitting {a b : PeerLine} (h : LineKeeps a b) : b.transmitting = a.transmitting := by
  have same := congrArg PeerLine.transmitting h
  exact same

theorem LineKeeps.counts {a b : PeerLine} (h : LineKeeps a b) :
    b.replies = a.replies ∧ b.periodCount = a.periodCount ∧ b.holdOff = a.holdOff := by
  have replies := congrArg PeerLine.replies h
  have count := congrArg PeerLine.periodCount h
  have holdOff := congrArg PeerLine.holdOff h
  exact ⟨replies, count, holdOff⟩

/-- An operation on what the reset clears whole. -/
theorem ResetSource.of_keeps {l : List Part} (h : Keeps l s u)
    (hl : partsWithin l [.constants, .nt, .px, .ju, .su, .freeCount, .pli] = true) (line : LineKeeps s.pli u.pli) :
    ResetSource s u := by
  have tg : u.tg = s.tg := (h.mono hl) .tg (by decide)
  have hs : u.hs = s.hs := (h.mono hl) .hs (by decide)
  have dp : u.dp = s.dp := (h.mono hl) .dp (by decide)
  exact ⟨(h.mono hl).mono (by rfl), by rw [tg], by rw [hs], by rw [hs], by rw [hs], by rw [hs], by rw [dp], line.transmitting⟩

theorem freshEntries_ranks (own : Rank) :
    (freshEntries own).map (fun e => e.rank) = allRanks.filter (fun r => r ≠ own) := by
  revert own
  decide

theorem freshEntries_absent {own : Rank} {e : NeighbourEntry} (h : e ∈ freshEntries own) :
    e.liveness = .absent ∧ e.age = 0 ∧ e.content = none := by
  obtain ⟨r, -, rfl⟩ := List.mem_map.mp h
  exact ⟨rfl, rfl, rfl⟩

/-- R154, R157: the beacon that tells of the reset. -/
theorem settle_lineResetEffect (s : State) : ∃ l, settle (lineResetEffect s) = { lineResetEffect s with pli := l }
    ∧ LineKeeps (lineResetEffect s).pli l
    ∧ if sendingBeacon s then l.beacon = none ∧ l.changeWaiting = true
      else l.beacon = some (assembleBeacon (lineResetEffect s)) ∧ l.changeWaiting = false := by
  have sending : sendingBeacon ((lineResetEffect s).withPli { (lineResetEffect s).pli with changeNoted := false })
      = sendingBeacon s := rfl
  have settled : settle (lineResetEffect s)
      = reportChange ((lineResetEffect s).withPli { (lineResetEffect s).pli with changeNoted := false }) := rfl
  have reports : settle (lineResetEffect s) = if sendingBeacon s then
        (lineResetEffect s).withPli { (lineResetEffect s).pli with changeNoted := false, changeWaiting := true }
      else beaconDue ((lineResetEffect s).withPli { (lineResetEffect s).pli with changeNoted := false }) := by
    rw [settled, reportChange, sending]
    cases sendingBeacon s <;> rfl
  by_cases hb : sendingBeacon s = true
  · simp only [hb, if_true] at reports ⊢
    exact ⟨_, reports, rfl, rfl, rfl⟩
  · simp only [hb, beaconDue, sending] at reports ⊢
    exact ⟨_, reports, rfl, rfl, rfl⟩

/-- R167: what a LINE RESET that takes effect leaves, from any state that agrees with `s` in what it keeps. -/
theorem ResetSource.values (h : ResetSource s u) : LineResetValues s (settle (lineResetEffect u)) := by
  obtain ⟨l, he, hl, told⟩ := settle_lineResetEffect u
  have rank : u.ownRank = s.ownRank := h.kept .ownRank (by decide)
  have sending : sendingBeacon u = sendingBeacon s := by simp only [sendingBeacon, h.line]
  have effect : Keeps [.constants, .nt, .tg, .px, .hs, .ju, .dp, .su, .freeCount, .pli] u { lineResetEffect u with pli := l } :=
    fun x hx => by cases x <;> simp [Part.same, lineResetEffect, noteChange, State.withPli] at hx ⊢
  rw [he]
  refine ⟨h.kept.trans effect, rfl, fun r => ?_, ⟨?_, fun e hm => ?_⟩, ?_, ⟨rfl, rfl, rfl, rfl, rfl, rfl, rfl, rfl,
      rfl, rfl, rfl⟩,
    ⟨u.hs, h.head, h.depth, h.force, h.forceAge, rfl⟩, rfl, h.port, rfl, ?_, ?_⟩
  · rw [← rank]
    exact inView_ownView u.ownRank r
  · rw [← rank]
    exact freshEntries_ranks u.ownRank
  · exact freshEntries_absent hm
  · rw [← h.place]
    rfl
  · obtain ⟨replies, count, holdOff⟩ := hl.counts
    exact ⟨replies, hl.transmitting.trans h.line, count, holdOff⟩
  · rw [← sending]
    exact told

/-! ### A chain that ends with a LINE RESET pending (R95, R168) -/

/-- R95, R168: the LINE RESET takes effect in place of STOPPED or IDLE. -/
theorem closeStopping_resets (e : Decision) (h : s.su.lineResetPending = true) :
    ∃ u, closeStopping e s = lineResetEffect u ∧ ResetSource s u := by
  obtain ⟨l, hj, hl⟩ := closeJoints_eq e.kind s
  obtain ⟨w, hw⟩ : ∃ w, w = withdrawTarget (closeJoints e.kind s) := ⟨_, rfl⟩
  have withdrawn : ResetSource s w := by
    refine ⟨?_, ?_, ?_, ?_, ?_, ?_, ?_, ?_⟩
    · rw [hw]
      exact (closeJoints_keeps e.kind s).then (withdrawTarget_keeps _) (by rfl) (by rfl)
    all_goals rw [hw, hj]
    · rfl
    · rfl
    · rfl
    · rfl
    · rfl
    · rfl
    · exact hl.transmitting
  have pending : w.su.lineResetPending = true := by
    rw [hw, hj]
    exact h
  obtain ⟨v, hv⟩ : ∃ v, v = (w.withPx { w.px with
      completion := completionOf e w, decided := none, secondary := none, firstRecord := false
      record := none, passed := false, leadPartner := none, trailPartner := none }).withFree (freeAfterPosition w) := ⟨_, rfl⟩
  obtain ⟨l', hc, hl'⟩ := setCompletionPending_eq true v
  have kept : Keeps [.px, .freeCount, .pli] w (setCompletionPending true v) := by
    rw [hv]
    exact ((withPx_keeps w _).then (withFree_keeps _ _) (n := [.px, .freeCount, .pli]) (by rfl) (by rfl)).then
      (setCompletionPending_keeps true _) (by rfl) (by rfl)
  refine ⟨setCompletionPending true v, ?_, withdrawn.trans (.of_keeps kept (by rfl) ?_)⟩
  · rw [closeStopping, ← hw]
    unfold endChain
    extract_lets c free x y z
    have reset : z.su.lineResetPending = true := by
      rw [show z.su = w.su from setCompletionPending_su true _]
      exact pending
    rw [reset, if_pos rfl, hv]
  · rw [hc, hv] at *
    exact hl'

theorem closeStopping_values (e : Decision) (h : s.su.lineResetPending = true) (hs : ResetSource t s) :
    LineResetValues t (settle (closeStopping e s)) := by
  obtain ⟨u, he, hu⟩ := closeStopping_resets e h
  rw [he]
  exact (hs.trans hu).values

end Sys2Proof.Machine

namespace Sys2Proof.Machine

variable {s t u v : State}

/-! ### A HALT (R93, R94, R114) -/

/-- R114: a normal retract with the travel phase closed: a head STIRRING with v above 0 keeps stirring with the retract
pending, any other working head goes RETRACTING. -/
theorem normalRetract_eq (ho : s.tg.phaseOpen = false) :
    ∃ h j l, normalRetract s = { s with hs := h, ju := j, pli := l } ∧ LineKeeps s.pli l
      ∧ (s.hs.state = .stirring → 0 < s.tg.v → h = { s.hs with retractPending := true } ∧ j = s.ju)
      ∧ (s.hs.state.working = true → s.hs.state ≠ .stirring ∨ s.tg.v = 0 → LeftStirring s j
        ∧ h = { s.hs with state := .retracting, phase := 0, spindle := 0, trim := 0 })
      ∧ (s.hs.state.working = false → h = s.hs ∧ j = s.ju) := by
  unfold normalRetract
  split
  · next hc =>
    obtain ⟨hs, hv⟩ := hc
    refine ⟨_, s.ju, s.pli, rfl, rfl, fun _ _ => ⟨rfl, rfl⟩, fun _ h => ?_, fun h => ?_⟩
    · rcases h with h | h
      · exact absurd hs h
      · omega
    · rw [hs] at h
      cases h
  · next hc =>
    split
    · next hw =>
      obtain ⟨l, j, he, hl, hj⟩ := enterRetracting_eq s
      refine ⟨_, j, l, ?_, hl, fun h1 h2 => absurd ⟨h1, h2⟩ hc, fun _ _ => ⟨hj, rfl⟩, fun h => ?_⟩
      · rw [he]
        simp only [ho, Bool.false_and]
        rw [← ho]
      · rw [hw] at h
        cases h
    · next hw => exact ⟨s.hs, s.ju, s.pli, rfl, rfl, fun h => by rw [h] at hw; exact absurd rfl hw, fun h => absurd h hw,
        fun _ => ⟨rfl, rfl⟩⟩

theorem closeIfRest_of_moving (h : 0 < s.tg.v ∨ s.hs.state ≠ .parked) : closeIfRest s = s := by
  have moving : atRest s = false := by
    rcases h with h | h
    · simp [atRest, Nat.pos_iff_ne_zero.mp h]
    · simp [atRest, h]
  rw [closeIfRest, moving]
  rfl

theorem closeIfRest_of_rest (hv : s.tg.v = 0) (hh : s.hs.state = .parked) : closeIfRest s = closeRecord s := by
  rw [closeIfRest, if_pos (by simp [atRest, hv, hh])]

theorem haltTaken_of_underRecord (h : s.px.state = .active ∨ (s.px.state = .fetching ∧ s.px.role = .continuation)) :
    haltTaken s = closeIfRest (setExecutor .halting (decideEnd ⟨.halted, none⟩ (normalRetract (withdrawTarget s)))) := by
  rcases h with h | ⟨h, hr⟩
  · simp only [haltTaken, h]
  · simp only [haltTaken, h, hr]

/-- R93, R114: a HALT that takes time. -/
theorem haltTaken_slows (h : s.px.state = .active ∨ (s.px.state = .fetching ∧ s.px.role = .continuation))
    (hm : 0 < s.tg.v ∨ s.hs.state.working = true) :
    Keeps [.tg, .px, .hs, .ju, .pli] s (haltTaken s) ∧ LineKeeps s.pli (haltTaken s).pli ∧ HaltSlows s (haltTaken s) := by
  obtain ⟨x, j, l, hn, hl, pending, retracts, stays⟩ := normalRetract_eq (s := withdrawTarget s) rfl
  obtain ⟨l', he, hl'⟩ := setExecutor_eq .halting (decideEnd ⟨.halted, none⟩ (normalRetract (withdrawTarget s)))
  have moving : 0 < s.tg.v ∨ x.state ≠ .parked := by
    rcases hm with hm | hm
    · exact .inl hm
    · by_cases hs : s.hs.state = .stirring ∧ 0 < s.tg.v
      · exact .inl hs.2
      · refine .inr ?_
        rw [(retracts hm ?_).2]
        · simp
        · by_cases hst : s.hs.state = .stirring
          · exact .inr (Nat.eq_zero_of_not_pos fun hv => hs ⟨hst, hv⟩)
          · exact .inl hst
  have halts : haltTaken s = { s with
      tg := withdrawn s.tg, px := { s.px with state := .halting, decided := some ⟨.halted, none⟩ }, hs := x, ju := j,
        pli := l' } := by
    rw [haltTaken_of_underRecord h, he, hn]
    exact closeIfRest_of_moving moving
  rw [hn] at hl'
  have congr (hj : LeftStirring (withdrawTarget s) j) : LeftStirring s j := hj.congr rfl rfl rfl rfl
  rw [halts]
  exact ⟨fun y hy => by cases y <;> simp [Part.same] at hy ⊢, hl.trans hl', rfl, rfl, pending,
    fun h1 h2 => ⟨congr (retracts h1 h2).1, (retracts h1 h2).2⟩, stays⟩

/-- R93: a HALT that finds nothing under way ends the chain at once. -/
theorem haltTaken_closes (h : s.px.state = .waitSlot ∨ (s.px.state = .fetching ∧ s.px.role = .fresh)
      ∨ (s.px.state = .active ∧ s.tg.v = 0 ∧ s.hs.state = .parked)) :
    ∃ u, haltTaken s = closeStopping ⟨.halted, none⟩ u ∧ u.su = s.su ∧ ResetSource s u := by
  rcases h with h | ⟨h, hr⟩ | ⟨h, hv, hh⟩
  · exact ⟨s, by simp only [haltTaken, h], rfl, .refl s⟩
  · exact ⟨s, by simp only [haltTaken, h, hr], rfl, .refl s⟩
  · obtain ⟨l, he, hl⟩ := setExecutor_eq .halting (decideEnd ⟨.halted, none⟩ (withdrawTarget s))
    obtain ⟨u, hu⟩ : ∃ u, u = setExecutor .halting (decideEnd ⟨.halted, none⟩ (withdrawTarget s)) := ⟨_, rfl⟩
    refine ⟨u, ?_, by rw [hu, he]; rfl, ?_⟩
    · rw [haltTaken_of_underRecord (.inl h), normalRetract_of_parked (by exact hh), ← hu,
        closeIfRest_of_rest (by rw [hu, he]; exact hv) (by rw [hu, he]; exact hh)]
      exact closeRecord_of_stopping (by rw [hu, he]; rfl) rfl
    · rw [hu, he]
      exact ⟨fun x hx => by cases x <;> simp [Part.same, decideEnd, withdrawTarget, State.withPx, State.withTg] at hx ⊢,
        rfl, rfl, rfl, rfl, rfl, rfl, hl.transmitting⟩

/-- R93: a HALT replaces a normal end that waits. -/
theorem haltTaken_of_normal {e : Decision} (h : s.px.state = .awaitHeadEnd) (hd : s.px.decided = some e) (hn : NormalEnd e) :
    ∃ l, haltTaken s = { s with px := { s.px with state := .halting, decided := some ⟨.halted, none⟩ }, pli := l }
      ∧ LineKeeps s.pli l := by
  obtain ⟨l, he, hl⟩ := setExecutor_eq .halting (decideEnd ⟨.halted, none⟩ s)
  refine ⟨l, ?_, hl⟩
  have normal : stoppingDecided s = false := by simp [stoppingDecided, hd, (normal_iff e).mpr hn]
  simp only [haltTaken, h]
  rw [normal, if_neg (by decide), he]
  rfl

/-- R93: a HALT adds nothing to a halt or a stopping cause that is obeyed already. -/
theorem haltTaken_of_stopping (h : s.px.state = .halting
      ∨ (s.px.state = .awaitHeadEnd ∧ ∃ e, s.px.decided = some e ∧ ¬ NormalEnd e)) : haltTaken s = s := by
  rcases h with h | ⟨h, e, hd, hn⟩
  · simp only [haltTaken, h]
  · have stopping : stoppingDecided s = true := by
      simp [stoppingDecided, hd, eq_false_of_ne_true (mt (normal_iff e).mp hn)]
    simp only [haltTaken, h]
    rw [stopping, if_pos rfl]

end Sys2Proof.Machine

namespace Sys2Proof.Machine

variable {s t u v : State}

/-! ### A retract that ends with a LINE RESET pending (R169, R181) -/

/-- A chain, if one is under way, waits for the retract with the stopping cause `e` decided. -/
def Obeys (s : State) : Prop :=
  (s.su.station ≠ .running ∧ (s.px.state = .idle ∨ s.px.state = .stopped))
    ∨ (s.su.station = .running ∧ (s.px.state = .halting ∨ s.px.state = .awaitHeadEnd)
      ∧ ∃ e, s.px.decided = some e ∧ ¬ NormalEnd e)

/-- `u` has come from `s` by what a LINE RESET clears, and what waits for the reset waits alike. -/
structure WaitsAlike (s u : State) : Prop where
  source : ResetSource s u
  speed : u.tg.v = s.tg.v
  executor : u.px.state = s.px.state
  decided : u.px.decided = s.px.decided
  station : u.su.station = s.su.station
  pending : u.su.lineResetPending = s.su.lineResetPending

theorem WaitsAlike.refl (s : State) : WaitsAlike s s := ⟨.refl s, rfl, rfl, rfl, rfl, rfl⟩

theorem WaitsAlike.trans (h : WaitsAlike s t) (k : WaitsAlike t u) : WaitsAlike s u :=
  ⟨h.source.trans k.source, k.speed.trans h.speed, k.executor.trans h.executor, k.decided.trans h.decided,
    k.station.trans h.station, k.pending.trans h.pending⟩

theorem WaitsAlike.obeys (h : WaitsAlike s u) (k : Obeys s) : Obeys u := by
  unfold Obeys
  rw [h.station, h.executor, h.decided]
  exact k

theorem raise_waitsAlike (f : AttentionFlag) (s : State) : WaitsAlike s (raise f s) := by
  obtain ⟨l, he, hl⟩ := raise_eq f s
  refine ⟨.of_keeps (raise_keeps f s) (by rfl) (by rw [he]; exact hl), ?_, ?_, ?_, ?_, ?_⟩ <;> rw [he]

theorem fileSecondary_waitsAlike (d : Detail) (s : State) : WaitsAlike s (fileSecondary d s) := by
  rw [fileSecondary_eq]
  exact ⟨.of_keeps (withPx_keeps s _) (by rfl) rfl, rfl, rfl, rfl, rfl, rfl⟩

theorem withdrawTarget_waitsAlike (s : State) : WaitsAlike s (withdrawTarget s) :=
  ⟨⟨fun x hx => by cases x <;> simp [Part.same, withdrawTarget, State.withTg] at hx ⊢, rfl, rfl, rfl, rfl, rfl, rfl, rfl⟩,
    rfl, rfl, rfl, rfl, rfl⟩

/-- R90: a fault that finds a stopping cause obeyed is filed. -/
theorem faultCause_waitsAlike (d : Detail) (hx : s.px.state = .halting ∨ s.px.state = .awaitHeadEnd) {e : Decision}
    (hd : s.px.decided = some e) (hn : ¬ NormalEnd e) (hh : s.hs.state.working = false) : WaitsAlike s (faultCause d s) := by
  obtain ⟨r, hr⟩ : ∃ r, r = raise .fault s := ⟨_, rfl⟩
  have raised : WaitsAlike s r := hr ▸ raise_waitsAlike .fault s
  have files : faultCause d s = fileSecondary d (withdrawTarget r) := by
    have idle : faultRetract (withdrawTarget r) = withdrawTarget r :=
      faultRetract_of_not_working _ (by rw [show (withdrawTarget r).hs = r.hs from rfl, raised.source.head]; exact hh)
    have stopping : stoppingDecided (withdrawTarget r) = true := by
      simp [stoppingDecided, show (withdrawTarget r).px.decided = some e from raised.decided.trans hd,
        eq_false_of_ne_true (mt (normal_iff e).mp hn)]
    rw [faultCause, ← hr]
    rcases hx with hx | hx
    · simp only [stoppingCause, raised.executor, hx, idle]
    · simp only [stoppingCause, raised.executor, hx, idle, stopping, if_true]
  rw [files]
  exact (raised.trans (withdrawTarget_waitsAlike r)).trans (fileSecondary_waitsAlike d _)

theorem faultCause_of_obeys (d : Detail) (h : Obeys s) (hr : s.su.station = .running) (hh : s.hs.state.working = false) :
    WaitsAlike s (faultCause d s) := by
  rcases h with ⟨hn, -⟩ | ⟨-, hx, e, hd, hn⟩
  · exact absurd hr hn
  · exact faultCause_waitsAlike d hx hd hn hh

/-- R177, R181: the faults of a message in RETRACTING, reported before the reset, change nothing that it keeps. -/
theorem feedbackFaults_waitsAlike {m : Feedback} (h : Obeys t) (hs : s.su.station = t.su.station)
    (hh : t.hs.state = .retracting) (hf : s.hs.state = .retracting) : WaitsAlike t (feedbackFaults m s t) := by
  have resting {w : State} (hw : WaitsAlike t w) : w.hs.state.working = false := by
    rw [hw.source.head, hh]
    rfl
  have fault (d : Detail) {w : State} (hw : WaitsAlike t w) (hr : s.su.station = .running) : WaitsAlike t (faultCause d w) :=
    hw.trans (faultCause_of_obeys d (hw.obeys h) (hw.station.trans (hs.symm.trans hr)) (resting hw))
  have drive {w : State} (hw : WaitsAlike t w) : WaitsAlike t (driveFault s w) := by
    unfold driveFault
    split
    · next hc =>
      refine fault .driveReported (hw.trans ⟨⟨?_, rfl, rfl, rfl, rfl, rfl, rfl, rfl⟩, rfl, rfl, rfl, rfl, rfl⟩) hc.1
      exact fun x hx => by cases x <;> simp [Part.same, State.withDp] at hx ⊢
    · exact hw
  have position : WaitsAlike t (positionFault m s t) := by
    unfold positionFault
    split
    · exact drive (.refl t)
    · split
      · next hc =>
        have running : s.su.station = .running := by
          simp only [followingLost, Bool.and_eq_true, beq_iff_eq] at hc
          exact hc.1.1.1
        refine fault .following ⟨⟨?_, rfl, rfl, rfl, rfl, rfl, rfl, rfl⟩, rfl, rfl, rfl, rfl, rfl⟩ running
        exact fun x hx => by cases x <;> simp [Part.same, State.withTg] at hx ⊢
      · exact .refl t
  have force : overloadFault m s (positionFault m s t) = positionFault m s t := by
    refine overloadFault_of_accepted ?_ _
    rintro (h | h | h) <;> rw [hf] at h <;> cases h
  rw [feedbackFaults, force, codeFault]
  split
  · exact position
  · exact drive position

/-- R166, R169: the head end brings the reset into effect. -/
theorem headEnd_resets (h : Obeys s) (hp : s.su.lineResetPending = true) (hv : s.tg.v = 0) (hh : s.hs.state = .parked) :
    ∃ u, headEnd s = lineResetEffect u ∧ ResetSource s u := by
  rcases h with ⟨hr, hx⟩ | ⟨-, hx, e, hd, hn⟩
  · refine ⟨s, ?_, .refl s⟩
    have resting : waitingForRest s = false := by
      rcases hx with hx | hx <;> simp [waitingForRest, hx]
    rw [headEnd, resting, if_neg (by decide), if_pos (by simp [hp, hr])]
  · have waits : waitingForRest s = true := by
      rcases hx with hx | hx <;> simp [waitingForRest, hx]
    obtain ⟨u, hu, source⟩ := closeStopping_resets e hp
    refine ⟨u, ?_, source⟩
    rw [headEnd, waits, if_pos rfl, closeIfRest_of_rest hv hh,
      closeRecord_of_stopping hd (eq_false_of_ne_true (mt (normal_iff e).mp hn)), hu]

/-- R112, R169, R181: a message that completes the retract, its faults reported before. -/
theorem retractCompletion_values {m : Feedback} (h : Obeys s) (hp : s.su.lineResetPending = true)
    (hs : s.hs.state = .retracting) (hm : s.dp.slot = some m) (he : s.dp.enable = true) (hpos : s.tg.p ≠ none)
    (hz : s.hs.zCommand = 0) (hc : m.zClear = true) (hv : s.tg.v = 0) :
    LineResetValues { s with dp := feedbackHeld m s.dp, hs := { forceTaken m s.hs with state := .parked } }
      (settle (takeFeedback false s)) := by
  obtain ⟨state, -, depth⟩ := forceTaken_keeps m s.hs
  obtain ⟨t, ht⟩ : ∃ t : State, t = { s with dp := feedbackHeld m s.dp, hs := forceTaken m s.hs } := ⟨_, rfl⟩
  obtain ⟨w, hw⟩ : ∃ w, w = feedbackFaults m s t := ⟨_, rfl⟩
  have alike : WaitsAlike t w := by
    rw [hw]
    exact feedbackFaults_waitsAlike (by rw [ht]; exact h) (by rw [ht]) (by rw [ht]; exact state.trans hs) hs
  have retracting : w.hs.state = .retracting := alike.source.head.trans (by rw [ht]; exact state.trans hs)
  have completes : feedbackCompletes m s w = headEnd (enterParked w) := by
    have spin : spinUpEnds m w = false := by simp [spinUpEnds, retracting]
    have ends : retractEnds m w = true := by
      have zero : w.hs.zCommand = 0 := alike.source.depth.trans (by rw [ht]; exact depth.trans hz)
      simp [retractEnds, retracting, zero, hc]
    unfold feedbackCompletes
    rw [if_neg (by rw [retracting, hs]; simp), spin, if_neg (by decide), ends, if_pos rfl]
  obtain ⟨l, hpk, hl⟩ := enterParked_eq w
  have obeys : Obeys (enterParked w) := by
    have := alike.obeys (by rw [ht]; exact h)
    rw [hpk]
    exact this
  obtain ⟨u, hu, source⟩ := headEnd_resets obeys
    (by rw [hpk]; exact alike.pending.trans (by rw [ht]; exact hp))
    (by rw [hpk]; exact alike.speed.trans (by rw [ht]; exact hv)) (by rw [hpk])
  have parked : ResetSource { s with dp := feedbackHeld m s.dp, hs := { forceTaken m s.hs with state := .parked } }
      (enterParked w) := by
    have begins : Keeps [.hs] { s with dp := feedbackHeld m s.dp, hs := { forceTaken m s.hs with state := .parked } } t := by
      rw [ht]
      exact fun x hx => by cases x <;> simp [Part.same] at hx ⊢
    have kept := (begins.then alike.source.kept
      (n := [.constants, .nt, .tg, .px, .hs, .ju, .dp, .su, .freeCount, .pli]) (by rfl) (by rfl)).then (enterParked_keeps w)
      (n := [.constants, .nt, .tg, .px, .hs, .ju, .dp, .su, .freeCount, .pli]) (by rfl) (by rfl)
    obtain ⟨-, place, -, depth, force, forceAge, port, line⟩ := alike.source
    rw [ht] at place depth force forceAge port line
    rw [hpk] at kept ⊢
    exact ⟨kept, place, rfl, depth, force, forceAge, port, hl.transmitting.trans line⟩
  rw [takeFeedback_of_slot hm, handOn_of_enabled he hpos, ← ht, ← hw, completes, hu]
  exact (parked.trans source).values

theorem retractComplete_exec {m : Feedback} (hp : s.su.lineResetPending = true) (hs : s.hs.state = .retracting)
    (hm : s.dp.slot = some m) (he : s.dp.enable = true) (hz : s.hs.zCommand = 0) (hc : m.zClear = true) :
    exec .retractComplete s = .next (settle (takeFeedback false s)) := by
  have due : slotHas (fun m => retractEnds m (followZ m s)) s = true := by
    have follows : followZ m s = s := if_pos he
    simp [slotHas, hm, follows, retractEnds, hs, hz, hc]
  show Host.Outcome.next (if slotHas _ s then settle (takeFeedback true s) else s) = _
  rw [due, if_pos rfl, takeFeedback_of_pending true hp]

theorem heldResetEffect_lineResetEffect (s : State) : heldResetEffect (lineResetEffect s) = lineResetEffect s :=
  heldResetEffect_of_none rfl

theorem heldResetEffect_of_pending (hp : s.su.lineResetPending = true) (hr : s.su.station ≠ .running)
    (hh : s.hs.state ≠ .retracting) : heldResetEffect s = lineResetEffect s := by
  rw [heldResetEffect, if_pos (by simp [hp, hr, hh])]

/-- R113, R169: the retract timeout brings the reset into effect. -/
theorem retractTimeoutCause_resets (h : Obeys s) (hp : s.su.lineResetPending = true) (hh : s.hs.state = .halted) :
    ∃ u, heldResetEffect (retractTimeoutCause s) = lineResetEffect u ∧ ResetSource s u := by
  have raised := raise_waitsAlike .fault s
  rcases h with ⟨hr, hx⟩ | ⟨-, hx, e, hd, hn⟩
  · rw [retractTimeoutCause_of_resting hx, heldResetEffect_of_pending (raised.pending.trans hp)
      (by rw [raised.station]; exact hr) (by rw [raised.source.head, hh]; decide)]
    exact ⟨_, rfl, raised.source⟩
  · rw [retractTimeoutCause_of_decided hx.symm hd, if_neg (mt (normal_iff e).mp hn)]
    have filed := raised.trans (fileSecondary_waitsAlike .retractTimeout _)
    obtain ⟨u, hu, source⟩ := closeStopping_resets e (filed.pending.trans hp)
    rw [hu, heldResetEffect_lineResetEffect]
    exact ⟨u, rfl, filed.source.trans source⟩

/-- R113, R169, with the Z command ramped once more (log 13). -/
theorem retractTimeout_values (h : Obeys s) (hp : s.su.lineResetPending = true) (hs : s.hs.state = .retracting)
    (hd : s.constants.retractTimeout ≤ oneOn s.hs.phase) :
    ∃ t, exec .retractTimeout s = .next t
      ∧ LineResetValues { s with hs := { s.hs with
          state := .halted, forceAge := oneOn s.hs.forceAge
          zCommand := if s.constants.retractRate ≤ s.hs.zCommand then s.hs.zCommand - s.constants.retractRate else 0 } } t := by
  obtain ⟨u, l, hexec, hu, hl⟩ := retractTimeout_eq hs hd
  obtain ⟨w, hw, source⟩ := retractTimeoutCause_resets (s := u) (by rw [hu]; exact h) (by rw [hu]; exact hp) (by rw [hu]; rfl)
  have halted : w.hs.state = .halted := source.head.trans (by rw [hu]; rfl)
  rw [hw, startPendingRetract_of_halted (by exact halted)] at hexec
  refine ⟨_, hexec, (ResetSource.trans ?_ source).values⟩
  rw [hu]
  exact ⟨fun x hx => by cases x <;> simp [Part.same] at hx ⊢, rfl, rfl, rfl, rfl, rfl, rfl, hl.transmitting⟩

/-! ### An emergency stop with a LINE RESET pending (R169, R178) -/

theorem estopCause_resets (hp : s.su.lineResetPending = true) (hx : ¬ (s.px.state = .idle ∨ s.px.state = .stopped)) :
    ∃ u, estopCause s = lineResetEffect u ∧ ResetSource s u := by
  simp only [not_or] at hx
  unfold estopCause
  split
  · next h => exact absurd h hx.1
  · next h => exact absurd h hx.2
  · split
    · split
      · exact closeStopping_resets _ hp
      · have filed := fileSecondary_waitsAlike .estop s
        obtain ⟨u, hu, source⟩ := closeStopping_resets _ (filed.pending.trans hp)
        exact ⟨u, hu, filed.source.trans source⟩
    · exact closeStopping_resets _ hp
  · exact closeStopping_resets _ hp

theorem headHalted_state (h : HeadSequencer) :
    (headHalted h).state = if h.state = .parked then .parked else .halted := by
  unfold headHalted
  split
  · next hc => rcases hc with hc | hc <;> simp [hc]
  · next hc =>
    rw [if_neg fun h => hc (.inl h)]

theorem headHalted_keeps (h : HeadSequencer) :
    (headHalted h).zCommand = h.zCommand ∧ (headHalted h).force = h.force ∧ (headHalted h).forceAge = h.forceAge := by
  unfold headHalted
  split <;> exact ⟨rfl, rfl, rfl⟩

theorem estopAsserted_values (hp : s.su.lineResetPending = true) (he : s.dp.estop = false)
    (h : s.su.station ≠ .running ∧ s.hs.state = .retracting ∧ (s.px.state = .idle ∨ s.px.state = .stopped)
      ∨ s.su.station = .running ∧ s.px.state ≠ .idle ∧ s.px.state ≠ .stopped) :
    ∃ t, exec .emergencyStopAsserted s = .next t
      ∧ LineResetValues { s with
          dp := { s.dp with estop := true }
          hs := { s.hs with state := if s.hs.state = .parked then .parked else .halted } } t := by
  obtain ⟨u, l, halts, hu, hl⟩ := estopAsserted_halts s
  obtain ⟨depth, force, forceAge⟩ := headHalted_keeps s.hs
  have pending : u.su.lineResetPending = true := by rw [hu]; exact hp
  have halted : ResetSource { s with
      dp := { s.dp with estop := true }
      hs := { s.hs with state := if s.hs.state = .parked then .parked else .halted } } u := by
    rw [hu]
    exact ⟨fun x hx => by cases x <;> simp [Part.same] at hx ⊢, rfl, headHalted_state s.hs, depth, force, forceAge, rfl,
      hl.transmitting⟩
  have resets : ∃ w, estopAsserted s = lineResetEffect w ∧ ResetSource u w := by
    rw [halts]
    rcases h with ⟨hr, hh, hx⟩ | ⟨-, h1, h2⟩
    · have notRetracting : u.hs.state ≠ .retracting := by
        rw [hu]
        show (headHalted s.hs).state ≠ _
        rw [headHalted_state, hh]
        decide
      rw [estopCause_of_resting (by rw [hu]; exact hx), heldResetEffect_of_pending pending (by rw [hu]; exact hr) notRetracting]
      exact ⟨u, rfl, .refl u⟩
    · obtain ⟨w, hw, source⟩ := estopCause_resets pending (by rw [hu]; exact not_or.mpr ⟨h1, h2⟩)
      rw [hw, heldResetEffect_lineResetEffect]
      exact ⟨w, rfl, source⟩
  obtain ⟨w, hw, source⟩ := resets
  refine ⟨settle (lineResetEffect w), ?_, (halted.trans source).values⟩
  show Host.Outcome.next (if s.dp.estop then s else settle (estopAsserted s)) = _
  rw [he, if_neg (by decide), hw]

end Sys2Proof.Machine

namespace Sys2Proof.Machine

variable {s t u v : State}

/-! ### A LINE RESET is taken (R167 to R169) -/

theorem lineReset_exec {sender dest : Nat} (h : Taken .lineReset sender dest [] s) :
    exec (.lineReset (cellFrame .lineReset sender dest [])) s = .next (settle (lineResetTaken (receptionEnds s))) := by
  show Host.Outcome.next (onFrame _ _ _ _) = _
  rw [onFrame_of_taken h]

theorem receptionEnds_source (s : State) : ResetSource s (receptionEnds s) :=
  ⟨fun x hx => by cases x <;> simp [Part.same, receptionEnds] at hx ⊢, rfl, rfl, rfl, rfl, rfl, rfl, rfl⟩

/-- R168: in RUNNING the mark is set and the reset obeyed first as a HALT. -/
def resetMarked (s : State) : State :=
  (receptionEnds s).withSu { s.su with lineResetPending := true }

theorem lineResetTaken_of_running (hr : s.su.station = .running) (hp : s.su.lineResetPending = false) :
    lineResetTaken (receptionEnds s) = haltTaken (resetMarked s) := by
  rw [lineResetTaken, if_pos (by exact hr), if_neg (by rw [receptionEnds_su, hp]; decide)]
  rfl

theorem resetMarked_source (s : State) : ResetSource s (resetMarked s) :=
  (receptionEnds_source s).trans (.of_keeps (withSu_keeps _ _) (by rfl) rfl)

theorem resetMarked_keeps (s : State) : Keeps [.su, .pli] s (resetMarked s) :=
  fun x hx => by cases x <;> simp [Part.same, resetMarked, receptionEnds, State.withSu] at hx ⊢

/-- A mark that is all the event does. -/
theorem settle_resetMarked (quiet : s.pli.changeNoted = false) : settle (resetMarked s) = { s with
    su := { s.su with lineResetPending := true }, pli := { s.pli with reception := .none } } :=
  settle_of_quiet (by exact quiet)

theorem retractFromHalted_eq (s : State) :
    retractFromHalted s = true ↔ s.hs.state = .retracting ∧ s.su.station ≠ .running := by
  simp [retractFromHalted]

/-- R167, R169: outside RUNNING. -/
theorem lineReset_idle (s : State) :
    (s.su.station ≠ .running → s.hs.state ≠ .retracting →
      (∃ t, exec .lineResetTakesEffect s = .next t ∧ LineResetValues s t)
      ∧ ∀ sender dest, Taken .lineReset sender dest [] s →
        ∃ t, exec (.lineReset (cellFrame .lineReset sender dest [])) s = .next t ∧ LineResetValues s t)
    ∧ (s.su.station = .running ∨ s.hs.state = .retracting → exec .lineResetTakesEffect s = .next s)
    ∧ (∀ sender dest, Taken .lineReset sender dest [] s → s.pli.changeNoted = false → s.su.station ≠ .running →
        s.hs.state = .retracting →
      exec (.lineReset (cellFrame .lineReset sender dest [])) s = .next { s with
        su := { s.su with lineResetPending := true }, pli := { s.pli with reception := .none } }) := by
  refine ⟨fun hr hh => ⟨⟨_, ?_, (ResetSource.refl s).values⟩, fun sender dest htaken => ⟨_, ?_,
      (receptionEnds_source s).values⟩⟩,
    fun h => ?_, fun sender dest htaken quiet hr hh => ?_⟩
  · have free : ¬ (s.su.station = .running ∨ retractFromHalted s = true) := by
      rw [retractFromHalted_eq]
      exact fun h => h.elim hr fun h => hh h.1
    show Host.Outcome.next (if _ then s else settle (lineResetEffect s)) = _
    rw [if_neg free]
  · have free : ¬ retractFromHalted (receptionEnds s) = true := by
      rw [retractFromHalted_eq]
      exact fun h => hh h.1
    rw [lineReset_exec htaken, lineResetTaken, if_neg (by exact hr), if_neg free]
  · have waits : s.su.station = .running ∨ retractFromHalted s = true := by
      rw [retractFromHalted_eq]
      by_cases hr : s.su.station = .running
      · exact .inl hr
      · exact .inr ⟨h.resolve_left hr, hr⟩
    show Host.Outcome.next (if _ then s else settle (lineResetEffect s)) = _
    rw [if_pos waits]
  · have waits : retractFromHalted (receptionEnds s) = true := (retractFromHalted_eq _).mpr ⟨hh, hr⟩
    rw [lineReset_exec htaken, lineResetTaken, if_neg (by exact hr), if_pos waits]
    exact congrArg Host.Outcome.next (settle_resetMarked quiet)

/-- R93, R95, R168: in RUNNING. -/
theorem lineReset_running (hr : s.su.station = .running) :
    (∀ sender dest, Taken .lineReset sender dest [] s → s.su.lineResetPending = false →
      (s.px.state = .active ∨ (s.px.state = .fetching ∧ s.px.role = .continuation) → 0 < s.tg.v ∨ s.hs.state.working = true →
        ∃ t, exec (.lineReset (cellFrame .lineReset sender dest [])) s = .next t
          ∧ Keeps [.tg, .px, .hs, .ju, .su, .pli] s t ∧ LineKeeps { s.pli with reception := .none } t.pli
          ∧ HaltSlows s t ∧ t.su = { s.su with lineResetPending := true })
      ∧ ((s.px.state = .waitSlot ∨ (s.px.state = .fetching ∧ s.px.role = .fresh)
            ∨ (s.px.state = .active ∧ s.tg.v = 0 ∧ s.hs.state = .parked)) →
        ∃ t, exec (.lineReset (cellFrame .lineReset sender dest [])) s = .next t ∧ LineResetValues s t)
      ∧ (∀ e, s.px.state = .awaitHeadEnd → s.px.decided = some e → NormalEnd e →
        ∃ t, exec (.lineReset (cellFrame .lineReset sender dest [])) s = .next t
          ∧ Keeps [.px, .su, .pli] s t ∧ LineKeeps { s.pli with reception := .none } t.pli
          ∧ t.px = { s.px with state := .halting, decided := some ⟨.halted, none⟩ }
          ∧ t.su = { s.su with lineResetPending := true })
      ∧ (s.px.state = .halting ∨ (s.px.state = .awaitHeadEnd ∧ ∃ e, s.px.decided = some e ∧ ¬ NormalEnd e) →
          s.pli.changeNoted = false →
        exec (.lineReset (cellFrame .lineReset sender dest [])) s = .next { s with
          su := { s.su with lineResetPending := true }, pli := { s.pli with reception := .none } }))
    ∧ (∀ sender dest, Taken .lineReset sender dest [] s → s.pli.changeNoted = false → s.su.lineResetPending = true →
      exec (.lineReset (cellFrame .lineReset sender dest [])) s = .next { s with pli := { s.pli with reception := .none } })
    ∧ (∀ e, s.px.state = .halting ∨ s.px.state = .awaitHeadEnd → s.px.decided = some e → ¬ NormalEnd e → s.tg.v = 0 →
        s.hs.state = .parked → s.su.lineResetPending = true →
      ∃ t, exec .recordClose s = .next t ∧ LineResetValues s t) := by
  refine ⟨fun sender dest htaken hp => ?_, fun sender dest htaken quiet hp => ?_, fun e hx hd hn hv hh hp => ?_⟩
  · have marked : exec (.lineReset (cellFrame .lineReset sender dest [])) s = .next (settle (haltTaken (resetMarked s))) := by
      rw [lineReset_exec htaken, lineResetTaken_of_running hr hp]
    rw [marked]
    refine ⟨fun hx hm => ?_, fun hx => ?_, fun e hx hd hn => ?_, fun hx quiet => ?_⟩
    · obtain ⟨kept, line, slows⟩ := haltTaken_slows (s := resetMarked s) hx hm
      obtain ⟨l, he, hl⟩ := settle_eq (haltTaken (resetMarked s))
      have su : (haltTaken (resetMarked s)).su = _ := kept .su (by decide)
      have keeps := ((resetMarked_keeps s).then kept (n := [.tg, .px, .hs, .ju, .su, .pli]) (by rfl) (by rfl)).then
        (settle_keeps _) (n := [.tg, .px, .hs, .ju, .su, .pli]) (by rfl) (by rfl)
      refine ⟨_, rfl, keeps, ?_⟩
      rw [he]
      obtain ⟨travel, executor, pending, retracts, stays⟩ := slows
      exact ⟨line.trans hl, ⟨travel, executor, pending,
        fun h1 h2 => ⟨(retracts h1 h2).1.congr rfl rfl rfl rfl, (retracts h1 h2).2⟩, stays⟩, su⟩
    · obtain ⟨u, hu, su, source⟩ := haltTaken_closes (s := resetMarked s) hx
      rw [hu]
      exact ⟨_, rfl, closeStopping_values _ (by rw [su]; rfl) ((resetMarked_source s).trans source)⟩
    · obtain ⟨l, hu, hl⟩ := haltTaken_of_normal (s := resetMarked s) hx hd hn
      obtain ⟨l', he, hl'⟩ := settle_eq (haltTaken (resetMarked s))
      refine ⟨_, rfl, ?_⟩
      rw [he]
      rw [hu] at hl' ⊢
      exact ⟨fun x hx => by cases x <;> simp [Part.same, resetMarked, receptionEnds, State.withSu] at hx ⊢, hl.trans hl', rfl,
        rfl⟩
    · rw [haltTaken_of_stopping (s := resetMarked s) hx, settle_resetMarked quiet]
  · have held : lineResetTaken (receptionEnds s) = receptionEnds s := by
      rw [lineResetTaken, if_pos (by exact hr), if_pos (by exact hp)]
    rw [lineReset_exec htaken, held]
    exact congrArg Host.Outcome.next (settle_of_quiet (by exact quiet))
  · have waits : waitingForRest s = true := by
      rcases hx with hx | hx <;> simp [waitingForRest, hx]
    have closes : executorCloses s = closeStopping e s := by
      rw [executorCloses, waits, if_pos rfl, closeIfRest_of_rest hv hh,
        closeRecord_of_stopping hd (eq_false_of_ne_true (mt (normal_iff e).mp hn))]
    refine ⟨_, ?_, closeStopping_values e hp (.refl s)⟩
    show Host.Outcome.next (settle (executorCloses s)) = _
    rw [closes]

/-- Settles O51. -/
theorem lineResetTakesEffect : Obligations.LineResetTakesEffect := by
  refine ⟨lineReset_idle, fun s hr => lineReset_running hr, fun s hp => ⟨fun hs h => ⟨fun m hm he hpos hz hc hv => ?_, ?_⟩, ?_⟩⟩
  · have taken : exec .feedbackTaken s = .next (settle (takeFeedback false s)) := rfl
    exact ⟨_, retractComplete_exec hp hs hm he hz hc, taken, retractCompletion_values h hp hs hm he hpos hz hc hv⟩
  · exact retractTimeout_values h hp hs
  · exact estopAsserted_values hp

end Sys2Proof.Machine

namespace Sys2Proof.Machine

/-! ### Decoding a position (R47) -/

theorem RegionWindow.covers_iff (w : RegionWindow) (x : Nat) :
    w.covers x = true ↔ w.enable = true ∧ w.base ≤ x ∧ x < w.base + w.length := by
  simp [RegionWindow.covers, and_assoc]

theorem decodeFrom_of_covers {w : RegionWindow} {x : Nat} (h : w.covers x = true) (n : Nat) (ws : List RegionWindow) :
    decodeFrom n (w :: ws) x = { window := some n, kind := w.kind, derate := w.derate, offset := w.offset } := by
  rw [decodeFrom, if_pos h]

theorem decodeFrom_of_not_covers {w : RegionWindow} {x : Nat} (h : ¬ w.covers x = true) (n : Nat) (ws : List RegionWindow) :
    decodeFrom n (w :: ws) x = decodeFrom (n + 1) ws x := by
  rw [decodeFrom, if_neg h]

/-- Numbered from `n`, the first window of the list that covers the position decodes it. -/
theorem decodeFrom_of_first {ws : List RegionWindow} {x i : Nat} {w : RegionWindow} (n : Nat) (hw : ws[i]? = some w)
    (covers : w.covers x = true) (first : ∀ (j : Nat) (y : RegionWindow), j < i → ws[j]? = some y → ¬ y.covers x = true) :
    decodeFrom n ws x = { window := some (n + i), kind := w.kind, derate := w.derate, offset := w.offset } := by
  induction ws generalizing n i with
  | nil => simp at hw
  | cons y ws ih =>
    cases i with
    | zero =>
      obtain rfl : y = w := by simpa using hw
      exact decodeFrom_of_covers covers n ws
    | succ i =>
      have later := ih (n + 1) (by simpa using hw) fun j z hj hz => first (j + 1) z (by omega) (by simpa using hz)
      rw [decodeFrom_of_not_covers (first 0 y (by omega) rfl), later, Nat.add_right_comm, Nat.add_assoc]

theorem decodeFrom_of_none {ws : List RegionWindow} {x : Nat} (n : Nat) (uncovered : ∀ w ∈ ws, ¬ w.covers x = true) :
    decodeFrom n ws x = defaultDescriptor := by
  induction ws generalizing n with
  | nil => rfl
  | cons w ws ih =>
    rw [decodeFrom_of_not_covers (uncovered w List.mem_cons_self), ih (n + 1) fun y hy => uncovered y (List.mem_cons_of_mem _ hy)]

/-- Settles O19, by induction on the windows in number order. -/
theorem regionDecoding : Obligations.RegionDecoding := by
  refine fun ws x => ⟨fun i w hw he hb hl first => ?_, fun uncovered => ?_⟩
  · have decoded := decodeFrom_of_first 0 hw ((w.covers_iff x).mpr ⟨he, hb, hl⟩)
      fun j y hj hy hc => first j y hj hy ((y.covers_iff x).mp hc)
    rwa [Nat.zero_add] at decoded
  · refine decodeFrom_of_none 0 fun w hw hc => ?_
    obtain ⟨i, hi⟩ := List.mem_iff_getElem?.mp hw
    exact uncovered i w hi ((w.covers_iff x).mp hc)

/-! ### The opening check (R51) -/

/-- A position at which no window begins and that is not the first past one is covered by the windows that cover the position
below it. -/
theorem covers_succ_of_not_edge {w : RegionWindow} {x : Nat} (hb : x + 1 ≠ w.base) (he : x + 1 ≠ w.base + w.length) :
    w.covers (x + 1) = w.covers x := by
  rw [Bool.eq_iff_iff, RegionWindow.covers_iff, RegionWindow.covers_iff]
  exact and_congr_right fun _ => by omega

theorem decodeFrom_succ_of_not_edge {ws : List RegionWindow} {x : Nat} (n : Nat) (h : x + 1 ∉ regionEdges ws) :
    decodeFrom n ws (x + 1) = decodeFrom n ws x := by
  induction ws generalizing n with
  | nil => rfl
  | cons w ws ih =>
    simp only [regionEdges, List.mem_cons, not_or] at h
    obtain ⟨hb, he, hws⟩ := h
    rw [decodeFrom, decodeFrom, covers_succ_of_not_edge hb he, ih (n + 1) hws]

/-- Log 20: going down from an OPEN position towards `a`, the positions stay OPEN until an edge or `a` itself is met. -/
theorem open_edge_below {ws : List RegionWindow} {a x : Nat} (hx : a ≤ x) (h : (decodeRegion ws x).kind = .opening) :
    ∃ y, a ≤ y ∧ y ≤ x ∧ (y = a ∨ y ∈ regionEdges ws) ∧ (decodeRegion ws y).kind = .opening := by
  induction x, hx using Nat.le_induction with
  | base => exact ⟨a, le_refl a, le_refl a, .inl rfl, h⟩
  | succ x hx ih =>
    by_cases edge : x + 1 ∈ regionEdges ws
    · exact ⟨x + 1, by omega, le_refl _, .inr edge, h⟩
    · rw [decodeRegion, decodeFrom_succ_of_not_edge 0 edge] at h
      obtain ⟨y, ha, hy, place, opening⟩ := ih h
      exact ⟨y, ha, by omega, place, opening⟩

/-- R51: what `spanOpen` reads suffices to find an OPEN position of the span. -/
theorem spanOpen_of_open {ws : List RegionWindow} {a b x : Nat} (ha : min a b ≤ x) (hb : x ≤ max a b)
    (h : (decodeRegion ws x).kind = .opening) : spanOpen ws a b = true := by
  obtain ⟨y, hay, hyx, place, opening⟩ := open_edge_below ha h
  refine List.any_eq_true.mpr ⟨y, ?_, beq_iff_eq.mpr opening⟩
  rcases place with rfl | edge
  · exact List.mem_cons_self
  · exact List.mem_cons_of_mem _ (List.mem_filter.mpr ⟨edge, by simp only [Bool.and_eq_true, decide_eq_true_eq]; omega⟩)

/-- Settles O20: the decoding changes only at an edge. -/
theorem openingCheck : Obligations.OpeningCheck :=
  fun _ _ _ => ⟨open_of_spanOpen, fun ⟨_, ha, hb, h⟩ => spanOpen_of_open ha hb h⟩

end Sys2Proof.Machine

namespace Sys2Proof.Machine

variable {s : State}

/-! ### A REGION LOAD's payload (12.4) -/

theorem signed16_unsigned16 {i : Int} (lo : -32768 ≤ i) (hi : i ≤ 32767) : signed16 (unsigned16 i) = i := by
  unfold signed16 unsigned16
  split <;> omega

theorem unsigned16_lt (i : Int) : unsigned16 i < 65536 := by
  unfold unsigned16
  omega

theorem bitOf_bitNat (b : Bool) : bitOf (bitNat b) 0 = b := by cases b <;> rfl

theorem bitNat_lt (b : Bool) : bitNat b < 256 := by cases b <;> decide

theorem RegionKind.code_lt (k : RegionKind) : k.code < 256 := by cases k <;> decide

theorem RegionKind.ofCode_code (k : RegionKind) : RegionKind.ofCode k.code = some k := by cases k <;> rfl

theorem RegionKind.ofCode_isNone_iff (n : Nat) : (RegionKind.ofCode n).isNone = true ↔ 2 < n := by
  match n with
  | 0 | 1 | 2 | n + 3 => simp [RegionKind.ofCode]

theorem length_regionPayload (i : Nat) (w : RegionWindow) : (regionPayload i w).length = 14 := by
  simp [regionPayload]

theorem index_regionPayload {i : Nat} (h : i < 256) (w : RegionWindow) : fieldAt (regionPayload i w) 0 1 = i := by
  simp only [regionPayload, List.append_assoc]
  exact fieldAt_bytesOfNat_append (by simpa using h) _

theorem kind_regionPayload (i : Nat) (w : RegionWindow) : fieldAt (regionPayload i w) 10 1 = w.kind.code := by
  simp only [regionPayload, List.append_assoc, fieldAt_bytesOfNat_skip, fieldAt_bytesOfNat_append, w.kind.code_lt,
    Nat.reduceSub, Nat.reduceLeDiff, Nat.le_refl, pow_one]

/-- A window is read as it was written (12.4). -/
theorem windowOfPayload_regionPayload (i : Nat) {w : RegionWindow} (base : w.base < 4294967296)
    (length : w.length < 4294967296) (derate : w.derate < 256) (lo : -32768 ≤ w.offset) (hi : w.offset ≤ 32767) :
    windowOfPayload (regionPayload i w) w.kind = w := by
  have offset := unsigned16_lt w.offset
  delta regionPayload
  simp only [windowOfPayload, List.append_assoc, fieldAt_bytesOfNat_skip, fieldAt_bytesOfNat_append, fieldAt_bytesOfNat,
    Nat.reduceSub, Nat.reduceLeDiff, Nat.reducePow, Nat.le_refl, bitNat_lt, base, length, derate, offset,
    bitOf_bitNat, signed16_unsigned16 lo hi]

/-! ### REGION LOAD (R46, R53) -/

theorem regionLoadResult_running (bs : List Byte) : regionLoadResult .running bs = .busy := if_pos rfl

theorem regionLoadResult_malformed {st : StationState} {bs : List Byte} (hs : st ≠ .running)
    (h : 7 < fieldAt bs 0 1 ∨ 2 < fieldAt bs 10 1 ∨ bs.length ≠ 14) : regionLoadResult st bs = .format := by
  rw [regionLoadResult, if_neg hs, if_pos (by rwa [RegionKind.ofCode_isNone_iff])]

/-- R53: outside RUNNING, a payload with no fault of format is judged by the ranges of its window. -/
theorem regionLoadResult_wellFormed {st : StationState} {bs : List Byte} {k : RegionKind} (hs : st ≠ .running)
    (index : fieldAt bs 0 1 ≤ 7) (kind : RegionKind.ofCode (fieldAt bs 10 1) = some k) (length : bs.length = 14) :
    ((windowOfPayload bs k).inRange → regionLoadResult st bs = .accepted)
      ∧ (¬ (windowOfPayload bs k).inRange → regionLoadResult st bs = .range) := by
  have wellFormed : ¬ (7 < fieldAt bs 0 1 ∨ (RegionKind.ofCode (fieldAt bs 10 1)).isNone = true ∨ bs.length ≠ 14) := by
    rw [kind]
    simp [index, length]
  rw [regionLoadResult, if_neg hs, if_neg wellFormed]
  simp only [RegionWindow.inRange, windowOfPayload]
  exact ⟨fun h => if_neg (by omega), fun h => if_pos (by omega)⟩

theorem regionLoadWindows_of_refused {st : StationState} {bs : List Byte} (h : regionLoadResult st bs ≠ .accepted)
    (ws : List RegionWindow) : regionLoadWindows st bs ws = ws := by
  unfold regionLoadWindows
  split
  · next accepted _ => exact absurd accepted h
  · rfl

theorem regionLoadWindows_of_accepted {st : StationState} {bs : List Byte} {k : RegionKind}
    (h : regionLoadResult st bs = .accepted) (kind : RegionKind.ofCode (fieldAt bs 10 1) = some k) (ws : List RegionWindow) :
    regionLoadWindows st bs ws = ws.set (fieldAt bs 0 1) (windowOfPayload bs k) := by
  rw [regionLoadWindows, h, kind]

/-- The state after a REGION LOAD that is taken: its windows, and its LOAD REPLY as the newest (R53, R150). -/
def regionLoaded (sender : Nat) (payload : List Byte) (s : State) : State :=
  (s.withRm (regionLoadWindows s.su.station payload s.rm)).withPli { s.pli with
    reception := .none
    replies := s.pli.replies ++ [.load sender
      (loadReplyPayload .regionLoad (regionLoadResult s.su.station payload) (fieldAt payload 0 1) 0)] }

theorem regionLoad_exec {sender dest : Nat} {payload : List Byte} (h : Taken .regionLoad sender dest payload s)
    (quiet : s.pli.changeNoted = false) :
    exec (.regionLoad (cellFrame .regionLoad sender dest payload)) s = .next (regionLoaded sender payload s) := by
  show Host.Outcome.next (onFrame _ _ _ _) = _
  rw [onFrame_of_taken h]
  exact congrArg Host.Outcome.next (settle_of_quiet quiet)

theorem regionLoaded_keeps (sender : Nat) (payload : List Byte) (s : State) :
    Keeps [.rm, .pli] s (regionLoaded sender payload s) :=
  (withRm_keeps s _).then (withPli_keeps (s.withRm _) _) (by rfl) (by rfl)

theorem Result.code_eq_zero_iff (r : Result) : r.code = 0 ↔ r = .accepted := by cases r <;> decide

/-- R53: outside RUNNING, a window within its fields' ranges is accepted and replaces the window of its number; one out of them
is answered RANGE. -/
theorem regionLoaded_of_regionPayload {i : Nat} {w : RegionWindow} (hi : i ≤ 7) (base : w.base < 4294967296)
    (length : w.length < 4294967296) (derate : w.derate < 256) (lo : -32768 ≤ w.offset) (hi' : w.offset ≤ 32767)
    (hs : s.su.station ≠ .running) :
    (w.inRange → regionLoadResult s.su.station (regionPayload i w) = .accepted
        ∧ regionLoadWindows s.su.station (regionPayload i w) s.rm = s.rm.set i w)
      ∧ (¬ w.inRange → regionLoadResult s.su.station (regionPayload i w) = .range) := by
  have index : fieldAt (regionPayload i w) 0 1 = i := index_regionPayload (by omega) w
  have window := windowOfPayload_regionPayload i base length derate lo hi'
  have kind : RegionKind.ofCode (fieldAt (regionPayload i w) 10 1) = some w.kind := by
    rw [kind_regionPayload, RegionKind.ofCode_code]
  obtain ⟨accepted, outOfRange⟩ := regionLoadResult_wellFormed hs (index.trans_le hi) kind (length_regionPayload i w)
  rw [window] at accepted outOfRange
  refine ⟨fun h => ⟨accepted h, ?_⟩, outOfRange⟩
  rw [regionLoadWindows_of_accepted (accepted h) kind, index, window]

/-- Settles O49, by the cases of the result. -/
theorem regionLoadReplaces : Obligations.RegionLoadReplaces := by
  intro s sender dest payload taken quiet
  refine ⟨regionLoaded sender payload s, (regionLoadResult s.su.station payload).code, regionLoad_exec taken quiet,
    regionLoaded_keeps sender payload s, rfl, fun hs => ?_, fun hs h => ?_, fun h => ?_, ?_⟩
  · rw [hs, regionLoadResult_running]
    rfl
  · rw [regionLoadResult_malformed hs h]
    rfl
  · exact regionLoadWindows_of_refused (mt (Result.code_eq_zero_iff _).mpr h) s.rm
  · rintro i w rfl hi base length derate lo hi' hs
    obtain ⟨accepted, outOfRange⟩ := regionLoaded_of_regionPayload hi base length derate lo hi' hs
    refine ⟨fun h => ?_, fun h => ?_⟩
    · obtain ⟨result, windows⟩ := accepted h
      exact ⟨(Result.code_eq_zero_iff _).mpr result, windows⟩
    · rw [outOfRange h]
      rfl

end Sys2Proof.Machine

namespace Sys2Proof.Machine

/-! ### A pass record's eight words (12.7) -/

theorem bitsOf_above {b k lo : Nat} (hb : b < 2 ^ k) (h : k ≤ lo) (a w : Nat) :
    bitsOf (a * 2 ^ k + b) lo w = bitsOf a (lo - k) w := by
  have split : 2 ^ lo = 2 ^ k * 2 ^ (lo - k) := by rw [← pow_add, Nat.add_sub_cancel' h]
  rw [bitsOf, bitsOf, split, ← Nat.div_div_eq_div_mul, Nat.mul_comm, Nat.mul_add_div (Nat.two_pow_pos k),
    Nat.div_eq_of_lt hb, Nat.add_zero]

theorem bitsOf_below {k lo w : Nat} (h : lo + w ≤ k) (a b : Nat) : bitsOf (a * 2 ^ k + b) lo w = bitsOf b lo w := by
  have split : 2 ^ k = 2 ^ lo * (2 ^ w * 2 ^ (k - (lo + w))) := by
    rw [← Nat.mul_assoc, ← pow_add, ← pow_add, Nat.add_sub_cancel' h]
  rw [bitsOf, bitsOf, split, Nat.mul_left_comm, Nat.mul_add_div (Nat.two_pow_pos lo), Nat.mul_left_comm, Nat.mul_add_mod]

theorem bitNat_lt_two (b : Bool) : bitNat b < 2 := by cases b <;> decide

theorem decide_bitNat_eq_one (b : Bool) : decide (bitNat b = 1) = b := by cases b <;> rfl

/-- Word 0: kind, flags, joint ids and plunge rate. -/
def kindWord (r : PassRecord) : Nat :=
  r.kindCode * 2 ^ 28 + bitNat r.chain * 2 ^ 27 + bitNat r.cont * 2 ^ 26 + bitNat r.tolerate * 2 ^ 25
    + bitNat r.notify * 2 ^ 24 + r.leadId * 2 ^ 16 + r.trailId * 2 ^ 8 + r.plungeRate

/-- Word 1: rate and cool dwell. -/
def rateWord (r : PassRecord) : Nat := r.rate * 2 ^ 16 + r.coolDwell

/-- Word 2: plunge depth and spindle speed. -/
def depthWord (r : PassRecord) : Nat := r.plungeDepth * 2 ^ 18 + r.rpm * 2 ^ 6

/-- Word 3: plunge dwell and force setpoint. -/
def dwellWord (r : PassRecord) : Nat := r.plungeDwell * 2 ^ 20 + r.setpoint * 2 ^ 8

/-- Words 4 to 7: the five positions. -/
def positionWords (r : PassRecord) : Nat :=
  r.start * 2 ^ 103 + r.endPos * 2 ^ 78 + r.release * 2 ^ 53 + r.entryX * 2 ^ 28 + r.standoff * 2 ^ 3

/-- Every word holds its fields. -/
theorem words_lt {r : PassRecord} (h : r.carried) : kindWord r < 2 ^ 32 ∧ rateWord r < 2 ^ 32 ∧ depthWord r < 2 ^ 32
    ∧ dwellWord r < 2 ^ 32 ∧ positionWords r < 2 ^ 128 := by
  obtain ⟨kind, lead, trail, plungeRate, rate, cool, depth, rpm, dwell, force, start, endPos, release, entry, standoff⟩ := h
  have chain := bitNat_lt_two r.chain
  have cont := bitNat_lt_two r.cont
  have tolerate := bitNat_lt_two r.tolerate
  have notify := bitNat_lt_two r.notify
  unfold kindWord rateWord depthWord dwellWord positionWords
  omega

theorem bitsOf_kindWord {r : PassRecord} (h : r.carried) : bitsOf (kindWord r) 28 4 = r.kindCode
    ∧ bitsOf (kindWord r) 27 1 = bitNat r.chain ∧ bitsOf (kindWord r) 26 1 = bitNat r.cont
    ∧ bitsOf (kindWord r) 25 1 = bitNat r.tolerate ∧ bitsOf (kindWord r) 24 1 = bitNat r.notify
    ∧ bitsOf (kindWord r) 16 8 = r.leadId ∧ bitsOf (kindWord r) 8 8 = r.trailId ∧ bitsOf (kindWord r) 0 8 = r.plungeRate := by
  obtain ⟨kind, lead, trail, plungeRate, -⟩ := h
  have chain := bitNat_lt_two r.chain
  have cont := bitNat_lt_two r.cont
  have tolerate := bitNat_lt_two r.tolerate
  have notify := bitNat_lt_two r.notify
  unfold bitsOf kindWord
  omega

theorem bitsOf_rateWord {r : PassRecord} (h : r.carried) : bitsOf (rateWord r) 16 16 = r.rate
    ∧ bitsOf (rateWord r) 0 16 = r.coolDwell := by
  obtain ⟨-, -, -, -, rate, cool, -⟩ := h
  unfold bitsOf rateWord
  omega

theorem bitsOf_depthWord {r : PassRecord} (h : r.carried) : bitsOf (depthWord r) 18 14 = r.plungeDepth
    ∧ bitsOf (depthWord r) 6 12 = r.rpm := by
  obtain ⟨-, -, -, -, -, -, depth, rpm, -⟩ := h
  unfold bitsOf depthWord
  omega

theorem bitsOf_dwellWord {r : PassRecord} (h : r.carried) : bitsOf (dwellWord r) 20 12 = r.plungeDwell
    ∧ bitsOf (dwellWord r) 8 12 = r.setpoint := by
  obtain ⟨-, -, -, -, -, -, -, -, dwell, force, -⟩ := h
  unfold bitsOf dwellWord
  omega

theorem bitsOf_positionWords {r : PassRecord} (h : r.carried) : bitsOf (positionWords r) 103 25 = r.start
    ∧ bitsOf (positionWords r) 78 25 = r.endPos ∧ bitsOf (positionWords r) 53 25 = r.release
    ∧ bitsOf (positionWords r) 28 25 = r.entryX ∧ bitsOf (positionWords r) 3 25 = r.standoff := by
  obtain ⟨-, -, -, -, -, -, -, -, -, -, start, endPos, release, entry, standoff⟩ := h
  unfold bitsOf positionWords
  omega

/-- The words of a record as one number, word 0 highest. -/
theorem natOfBytes_recordBytes {r : PassRecord} (h : r.carried) :
    natOfBytes (recordBytes r) = (((kindWord r * 2 ^ 32 + rateWord r) * 2 ^ 32 + depthWord r) * 2 ^ 32 + dwellWord r)
      * 2 ^ 128 + positionWords r := by
  have words : recordBytes r = bytesOfNat 4 (kindWord r) ++ bytesOfNat 4 (rateWord r) ++ bytesOfNat 4 (depthWord r)
      ++ bytesOfNat 4 (dwellWord r) ++ bytesOfNat 16 (positionWords r) := rfl
  obtain ⟨h0, h1, h2, h3, h4⟩ := words_lt h
  simp only [words, natOfBytes_append, length_bytesOfNat]
  rw [natOfBytes_bytesOfNat_of_lt (k := 4) h0, natOfBytes_bytesOfNat_of_lt (k := 4) h1,
    natOfBytes_bytesOfNat_of_lt (k := 4) h2, natOfBytes_bytesOfNat_of_lt (k := 4) h3,
    natOfBytes_bytesOfNat_of_lt (k := 16) h4]
  rfl

theorem length_recordBytes (r : PassRecord) : (recordBytes r).length = 32 := by simp [recordBytes]

/-- A record is read as it was written: each field stands in its word, and a word's bits are those of the whole. -/
theorem recordOfBytes_recordBytes {r : PassRecord} (h : r.carried) : recordOfBytes (recordBytes r) = r := by
  obtain ⟨-, h1, h2, h3, h4⟩ := words_lt h
  obtain ⟨kind, chain, cont, tolerate, notify, lead, trail, plungeRate⟩ := bitsOf_kindWord h
  obtain ⟨rate, cool⟩ := bitsOf_rateWord h
  obtain ⟨depth, rpm⟩ := bitsOf_depthWord h
  obtain ⟨dwell, force⟩ := bitsOf_dwellWord h
  obtain ⟨start, endPos, release, entry, standoff⟩ := bitsOf_positionWords h
  simp only [recordOfBytes, natOfBytes_recordBytes h, bitOf, bitsOf_above, bitsOf_below, h1, h2, h3, h4, Nat.reduceLeDiff,
    Nat.reduceSub, Nat.reduceAdd, kind, chain, cont, tolerate, notify, lead, trail, plungeRate, rate, cool, depth, rpm, dwell,
    force, start, endPos, release, entry, standoff, decide_bitNat_eq_one]

/-- Settles O10. -/
theorem recordReadBack : Obligations.RecordReadBack := by
  intro r kind lead trail plungeRate rate cool depth rpm dwell force start endPos release entry standoff
  exact ⟨length_recordBytes r, recordOfBytes_recordBytes
    ⟨kind, lead, trail, plungeRate, rate, cool, depth, rpm, dwell, force, start, endPos, release, entry, standoff⟩⟩

end Sys2Proof.Machine

namespace Sys2Proof.Machine

variable {s : State}

/-! ### Records written one after another (R56) -/

theorem drop_readBytes (m : List Host.Cell) (a n k : Nat) : (readBytes m a n).drop k = readBytes m (a + k) (n - k) := by
  induction k generalizing a n with
  | zero => rfl
  | succ k ih =>
    cases n with
    | zero => simp [readBytes]
    | succ n => rw [readBytes, List.drop_succ_cons, ih, Nat.add_right_comm, Nat.add_assoc, Nat.add_sub_add_right]

theorem take_readBytes (m : List Host.Cell) (a : Nat) {n k : Nat} (h : k ≤ n) :
    (readBytes m a n).take k = readBytes m a k := by
  induction k generalizing a n with
  | zero => rfl
  | succ k ih =>
    cases n with
    | zero => omega
    | succ n => rw [readBytes, List.take_succ_cons, ih (a + 1) (by omega), readBytes]

/-- A record is read from its own 32 of the bytes written. -/
theorem readRecord_writeBytes {m : List Host.Cell} (h : Memory.wf m = true) (i : Nat) {j : Nat} {bs : List Byte}
    (hj : 32 * j + 32 ≤ bs.length) :
    readRecord (writeBytes m (Config.recordBytes * i) bs) (i + j) = recordOfBytes ((bs.drop (32 * j)).take 32) := by
  have written := congrArg (fun x => (x.drop (32 * j)).take 32) (readBytes_writeBytes h (32 * i) bs)
  simp only [drop_readBytes] at written
  rw [take_readBytes _ _ (by omega), ← Nat.mul_add] at written
  exact congrArg recordOfBytes written

/-! ### PASS LOAD (R56, R67, R69) -/

theorem passLoadResult_running (bs : List Byte) : passLoadResult .running bs = .busy := if_pos rfl

theorem passLoadResult_malformed {st : StationState} {bs : List Byte} (hs : st ≠ .running)
    (h : fieldAt bs 2 1 = 0 ∨ 4 < fieldAt bs 2 1 ∨ bs.length ≠ 3 + 32 * fieldAt bs 2 1) :
    passLoadResult st bs = .format := by
  rw [passLoadResult, if_neg hs]
  exact if_pos h

/-- R67: outside RUNNING, a payload with no fault of format is judged by its last record's index. -/
theorem passLoadResult_wellFormed {st : StationState} {bs : List Byte} (hs : st ≠ .running) (any : 1 ≤ fieldAt bs 2 1)
    (few : fieldAt bs 2 1 ≤ 4) (length : bs.length = 3 + 32 * fieldAt bs 2 1) :
    (512 < fieldAt bs 0 2 + fieldAt bs 2 1 → passLoadResult st bs = .range)
      ∧ (fieldAt bs 0 2 + fieldAt bs 2 1 ≤ 512 → passLoadResult st bs = .accepted) := by
  have wellFormed : ¬ (fieldAt bs 2 1 = 0 ∨ 4 < fieldAt bs 2 1
      ∨ bs.length ≠ 3 + Config.recordBytes * fieldAt bs 2 1) := by
    simp only [Config.recordBytes]
    omega
  rw [passLoadResult, if_neg hs, if_neg wellFormed]
  exact ⟨fun h => if_pos h, fun h => if_neg (Nat.not_lt.mpr h)⟩

theorem length_of_accepted {st : StationState} {bs : List Byte} (h : passLoadResult st bs = .accepted) :
    bs.length = 3 + 32 * fieldAt bs 2 1 := by
  by_contra hl
  by_cases hs : st = .running
  · rw [hs, passLoadResult_running] at h
    cases h
  · rw [passLoadResult_malformed hs (.inr (.inr hl))] at h
    cases h

/-- Pass Memory after a PASS LOAD (R67). -/
def passLoadMemory (st : StationState) (bs : List Byte) (m : List Host.Cell) : List Host.Cell :=
  if passLoadResult st bs = .accepted then writeBytes m (Config.recordBytes * fieldAt bs 0 2) (bs.drop 3) else m

/-- The state after a PASS LOAD that is taken: its records, and its LOAD REPLY as the newest (R67, R69, R150). -/
def passLoaded (sender : Nat) (payload : List Byte) (s : State) : State :=
  (s.withPm (passLoadMemory s.su.station payload s.pm)).withPli { s.pli with
    reception := .none
    replies := s.pli.replies ++ [.load sender (loadReplyPayload .passLoad (passLoadResult s.su.station payload)
      (fieldAt payload 0 2) (fieldAt payload 2 1))] }

theorem passLoadTaken_eq (f : ReceivedFrame) (s : State) : passLoadTaken f s
    = queueReply (.load f.sender (loadReplyPayload .passLoad (passLoadResult s.su.station f.payload) (fieldAt f.payload 0 2)
        (fieldAt f.payload 2 1))) (s.withPm (passLoadMemory s.su.station f.payload s.pm)) := by
  unfold passLoadTaken passLoadMemory
  extract_lets bs r x
  exact congrArg (queueReply _) (apply_ite s.withPm _ _ _).symm

theorem passLoad_exec {sender dest : Nat} {payload : List Byte} (h : Taken .passLoad sender dest payload s)
    (quiet : s.pli.changeNoted = false) :
    exec (.passLoad (cellFrame .passLoad sender dest payload)) s = .next (passLoaded sender payload s) := by
  show Host.Outcome.next (onFrame _ _ _ _) = _
  rw [onFrame_of_taken h, passLoadTaken_eq]
  exact congrArg Host.Outcome.next (settle_of_quiet quiet)

theorem passLoaded_keeps (sender : Nat) (payload : List Byte) (s : State) :
    Keeps [.pm, .pli] s (passLoaded sender payload s) :=
  (withPm_keeps s _).then (withPli_keeps (s.withPm _) _) (by rfl) (by rfl)

/-- R56, R67: an accepted PASS LOAD replaces its records and no other byte. -/
theorem passLoadMemory_of_accepted {st : StationState} {bs : List Byte} {m : List Host.Cell} (hm : Memory.wf m = true)
    (h : passLoadResult st bs = .accepted) :
    (∀ j, j < fieldAt bs 2 1 →
        readRecord (passLoadMemory st bs m) (fieldAt bs 0 2 + j) = recordOfBytes ((bs.drop (3 + 32 * j)).take 32))
      ∧ ∀ a, a < 32 * fieldAt bs 0 2 ∨ 32 * (fieldAt bs 0 2 + fieldAt bs 2 1) ≤ a →
        readByte (passLoadMemory st bs m) a = readByte m a := by
  have length : (bs.drop 3).length = 32 * fieldAt bs 2 1 := by
    rw [List.length_drop, length_of_accepted h, Nat.add_sub_cancel_left]
  rw [passLoadMemory, if_pos h]
  refine ⟨fun j hj => ?_, fun a ha => readByte_writeBytes_outside hm _ _ _ ?_⟩
  · rw [readRecord_writeBytes hm _ (by omega), List.drop_drop]
  · simp only [Config.recordBytes]
    omega

/-- Settles O48, by the cases of the result. -/
theorem passLoadWrites : Obligations.PassLoadWrites := by
  intro s sender dest payload taken quiet hm
  refine ⟨passLoaded sender payload s, (passLoadResult s.su.station payload).code, passLoad_exec taken quiet,
    passLoaded_keeps sender payload s, rfl, fun hs => ?_, fun hs => ⟨fun h => ?_, fun any few length => ?_⟩, fun h => ?_,
    fun h => ?_⟩
  · rw [hs, passLoadResult_running]
    rfl
  · rw [passLoadResult_malformed hs h]
    rfl
  · obtain ⟨range, accepted⟩ := passLoadResult_wellFormed hs any few length
    exact ⟨fun h => congrArg Result.code (range h), fun h => congrArg Result.code (accepted h)⟩
  · exact if_neg (mt (Result.code_eq_zero_iff _).mpr h)
  · exact passLoadMemory_of_accepted hm ((Result.code_eq_zero_iff _).mp h)

end Sys2Proof.Machine

namespace Sys2Proof.Machine

variable {s t : State}

/-! ### A fresh fetch that fails (R79) -/

/-- R79, R91, R92: what a fresh fetch that fails with detail `d` makes of a chain with no LINE RESET pending, be p known or
not. -/
structure FetchFailed (d : Detail) (s t : State) : Prop where
  kept : Keeps [.tg, .px, .ju, .su, .freeCount, .pli] s t
  line : LineKeeps s.pli t.pli
  travel : t.tg = withdrawn s.tg
  joints : t.ju = afterClose .programCheck s.ju
  executor : t.px = executorAfter .stopped ⟨.programCheck, some d⟩ s.px.secondary (positionReached s) 0 s
  station : t.su.station = .stopped
  flag : t.flag .programCheck = true

theorem remainingDistance_of_not_passed (h : s.px.passed = false) : remainingDistance s = 0 := by
  unfold remainingDistance
  split
  · rw [h, Bool.false_and, if_neg Bool.false_ne_true]
  · rfl

theorem programCheck_failed (d : Detail) (hr : s.px.role = .fresh) (h : s.su.lineResetPending = false) :
    FetchFailed d s (programCheck d s) := by
  obtain ⟨l, raised, line⟩ := raise_eq .programCheck (s.withPx { s.px with passed := false })
  obtain ⟨u, hu⟩ : ∃ u, u = raise .programCheck (s.withPx { s.px with passed := false }) := ⟨_, rfl⟩
  have flag : u.flag .programCheck = true := by simp [hu, State.flag_raise]
  rw [programCheck_of_fresh d hr, ← hu]
  rw [raised] at hu
  obtain ⟨l', closed, line'⟩ := closeStopping_eq ⟨.programCheck, some d⟩ u (by rw [hu]; exact h)
  rw [remainingDistance_of_not_passed (s := u) (by rw [hu]; rfl)] at closed
  rw [closed]
  refine ⟨?_, ?_, by rw [hu]; rfl, by rw [hu]; rfl, by rw [hu]; rfl, rfl, ?_⟩
  · rw [hu]
    exact fun x hx => by cases x <;> simp [Part.same] at hx ⊢
  · rw [hu] at line'
    exact line.trans line'
  · exact (flag_raisedIf _ _ _ _).trans (by rw [show u.su.flags.getLsbD _ = true from flag]; rfl)

/-! ### A PAUSE counts down (R62, R81) -/

theorem pausing_of_pause {r : PassRecord} (hx : s.px.state = .active) (hr : s.px.record = some r)
    (hk : r.kind = some .pause) : pausing s = true := by
  simp [pausing, hx, hr, hk]

/-- The state in which a PAUSE whose count has reached 0 closes. -/
def pauseEnds (s : State) : State :=
  s.withPx { s.px with pauseCount := 0, decided := some ⟨.complete, none⟩ }

theorem pauseCounts_of_last (h : s.px.pauseCount ≤ 1) : pauseCounts s = closeRecord (pauseEnds s) := by
  have done : s.px.pauseCount - 1 = 0 := by omega
  simp only [pauseCounts, State.withPx_px, done, if_true]
  rfl

theorem pauseEnd_exec (hp : pausing s = true) (h : s.px.pauseCount ≤ 1) :
    exec .pauseEnd s = .next (settle (closeRecord (pauseEnds s))) := by
  show Host.Outcome.next _ = _
  rw [hp, decide_eq_true h, Bool.and_self, if_pos rfl, pauseCounts_of_last h]

/-- R89: after a PAUSE only CHAIN carries the chain on. -/
theorem nextFetch_of_pause {r : PassRecord} (hk : r.kind = some .pause) (i : Nat) :
    nextFetch .complete (some r) i = if r.chain then some (.fresh, i + 1) else none := by
  simp [nextFetch, PassRecord.continues, PassRecord.chains, hk]

theorem pauseEnds_noDistance {r : PassRecord} (hr : s.px.record = some r) (hk : r.kind = some .pause) :
    remainingDistance (pauseEnds s) = 0 := by
  unfold remainingDistance
  rw [show (pauseEnds s).px.record = some r from hr]
  simp [PassRecord.travelKind, hk]

/-- R91, R92: a PAUSE without CHAIN ends its chain. -/
theorem closeRecord_pauseEnds {r : PassRecord} (hr : s.px.record = some r) (hk : r.kind = some .pause)
    (hc : r.chain = false) (h : s.su.lineResetPending = false) :
    ∃ l, closeRecord (pauseEnds s) = { s with
        tg := withdrawn s.tg, ju := afterClose .complete s.ju
        px := { executorAfter .idle ⟨.complete, none⟩ s.px.secondary (positionReached s) 0 s with pauseCount := 0 }
        su := { s.su with station := .idle }, freeCount := freeAfterPosition s, pli := l } ∧ LineKeeps s.pli l := by
  obtain ⟨l, he, hl⟩ := closeStopping_eq ⟨.complete, none⟩ (pauseEnds s) h
  refine ⟨l, ?_, hl⟩
  have closes : closeRecord (pauseEnds s) = closeStopping ⟨.complete, none⟩ (pauseEnds s) := by
    have next : nextFetch .complete s.px.record s.px.index = none := by rw [hr, nextFetch_of_pause hk, hc]; rfl
    unfold closeRecord
    simp only [pauseEnds, State.withPx_px, next]
  rw [closes, he, pauseEnds_noDistance hr hk]
  simp only [bne_self_eq_false, Bool.and_false, Bool.false_eq_true, if_false]
  rfl

/-- The state in which the fetch after a PAUSE with CHAIN begins. -/
def pauseCloses (l : PeerLine) (s : State) : State :=
  { s with
    tg := withdrawn s.tg, ju := afterClose .complete s.ju
    px := { s.px with pauseCount := 0, decided := some ⟨.complete, none⟩, firstRecord := false }, pli := l }

/-- R89: a PAUSE with CHAIN closes and the next record's fetch begins. -/
theorem closeRecord_pauseCloses {r : PassRecord} (hr : s.px.record = some r) (hk : r.kind = some .pause)
    (hc : r.chain = true) :
    ∃ l, closeRecord (pauseEnds s) = beginFetch .fresh (s.px.index + 1) (pauseCloses l s) ∧ LineKeeps s.pli l := by
  obtain ⟨l, he, hl⟩ := closeJoints_eq .complete (pauseEnds s)
  refine ⟨l, ?_, hl⟩
  have next : nextFetch .complete s.px.record s.px.index = some (.fresh, s.px.index + 1) := by
    rw [hr, nextFetch_of_pause hk, hc]; rfl
  have closes : closeRecord (pauseEnds s) = beginFetch .fresh (s.px.index + 1)
      ((withdrawTarget (closeJoints .complete (pauseEnds s))).withPx { (pauseEnds s).px with firstRecord := false }) := by
    unfold closeRecord
    simp only [pauseEnds, State.withPx_px, next]
  rw [closes, he]
  simp only [bne_self_eq_false, Bool.and_false, Bool.false_eq_true, if_false]
  rfl

/-- R76: the fetch of an index of 512 or more begins and fails at once. -/
theorem beginFetch_failed {i : Nat} (hi : 512 ≤ i) (h : s.su.lineResetPending = false) :
    ∃ l, LineKeeps s.pli l ∧ FetchFailed .indexRange { s with
        px := { s.px with state := .fetching, role := .fresh, decided := none, record := none }, pli := l }
      (beginFetch .fresh i s) := by
  obtain ⟨l, he, hl⟩ := setExecutor_eq .fetching (s.withPx { s.px with role := .fresh, decided := none })
  refine ⟨l, hl, ?_⟩
  unfold beginFetch
  rw [if_pos (show Config.recordCount ≤ i from hi), he]
  exact programCheck_failed (s := { s with
    px := { s.px with state := .fetching, role := .fresh, decided := none, record := none }, pli := l }) .indexRange rfl h

/-- R75, R76, R89: what the fetch after a PAUSE with CHAIN leaves, from its index on. -/
theorem pauseCloses_fetches {l : PeerLine} {i : Nat} (line : LineKeeps s.pli l) (h : s.su.lineResetPending = false) :
    let t := beginFetch .fresh i (pauseCloses l s)
    Keeps [.tg, .px, .ju, .su, .freeCount, .pli] s t ∧ LineKeeps s.pli t.pli ∧ t.tg = withdrawn s.tg
      ∧ t.ju = afterClose .complete s.ju ∧ (i ≤ 511 → t.freeCount = s.freeCount)
      ∧ NextFetched i (positionReached s) { s with px := { s.px with pauseCount := 0 } } t := by
  intro t
  have closed : Keeps [.tg, .px, .ju, .su, .freeCount, .pli] s (pauseCloses l s) :=
    fun x hx => by cases x <;> simp [Part.same, pauseCloses] at hx ⊢
  by_cases hi : i ≤ 511
  · obtain ⟨l', begun, line'⟩ := beginFetch_eq .fresh hi (pauseCloses l s)
    rw [show t = _ from begun]
    refine ⟨closed.trans fun x hx => by cases x <;> simp [Part.same] at hx ⊢, line.trans line', rfl, rfl, fun _ => rfl,
      fun _ => ⟨rfl, ?_⟩, fun h => absurd h (by omega)⟩
    obtain ⟨set, su, others⟩ := notified_of_su (s := { s with px := { s.px with pauseCount := 0 } }) (t := t)
      (r := readRecord s.pm i) (i := i) (by rw [show t = _ from begun]; rfl)
    rw [show t = _ from begun] at set su others
    exact ⟨set, su, fun f hf _ => others f hf (by simp)⟩
  · obtain ⟨l', line', failed⟩ := beginFetch_failed (s := pauseCloses l s) (i := i) (by omega) h
    refine ⟨(closed.trans fun x hx => by cases x <;> simp [Part.same] at hx ⊢).trans failed.kept,
      (line.trans line').trans failed.line, failed.travel, ?_, fun h => absurd h hi, fun h => absurd h hi,
      fun _ => ⟨failed.station, failed.flag, failed.executor⟩⟩
    exact failed.joints.trans (afterClose_afterClose .complete .programCheck s.ju)

/-- Settles O30: R89 by CHAIN. -/
theorem pauseEndCompletes : Obligations.PauseEndCompletes := by
  intro s r hx hr hk hreset
  have pause := pausing_of_pause hx hr hk
  refine ⟨fun last chain => ?_, fun last chain => ?_, fun more => ?_⟩
  · obtain ⟨l, closed, line⟩ := closeRecord_pauseEnds hr hk chain hreset
    obtain ⟨l', settled, line'⟩ := settle_eq (closeRecord (pauseEnds s))
    rw [closed] at line'
    refine ⟨_, positionReached s, pauseEnd_exec pause last, fun p hp => positionReached_eq hp, ?_⟩
    rw [settled, closed]
    exact ⟨fun x hx => by cases x <;> simp [Part.same] at hx ⊢, line.trans line', rfl, rfl, rfl, rfl⟩
  · obtain ⟨l, closed, line⟩ := closeRecord_pauseCloses hr hk chain
    obtain ⟨l', settled, line'⟩ := settle_eq (closeRecord (pauseEnds s))
    obtain ⟨kept, line, travel, joints, free, fetched, failed⟩ := pauseCloses_fetches (i := s.px.index + 1) line hreset
    rw [← closed] at kept line travel joints free fetched failed
    refine ⟨_, positionReached s, pauseEnd_exec pause last, fun p hp => positionReached_eq hp, ?_⟩
    rw [settled]
    exact ⟨kept.trans fun x hx => by cases x <;> simp [Part.same] at hx ⊢, line.trans line', travel, joints, free, fetched,
      failed⟩
  · show Host.Outcome.next _ = _
    rw [decide_eq_false (Nat.not_le.mpr more), Bool.and_false, if_neg Bool.false_ne_true]

end Sys2Proof.Machine

namespace Sys2Proof.Machine

variable {s t : State}

/-! ### The first check that fails (R77, R78) -/

theorem FirstFailing.fails {F : Detail → Prop} {l : List Detail} {d : Detail} (h : FirstFailing F l d) : d ∈ l ∧ F d := by
  induction l with
  | nil => exact h.elim
  | cons x rest ih =>
    rcases h with ⟨hx, rfl⟩ | ⟨-, h⟩
    · exact ⟨List.mem_cons_self, hx⟩
    · exact ⟨List.mem_cons_of_mem _ (ih h).1, (ih h).2⟩

/-- The first failing check is among the first listed, or none of those fails. -/
theorem FirstFailing.of_append {F : Detail → Prop} {l m : List Detail} {d : Detail} (h : FirstFailing F (l ++ m) d) :
    FirstFailing F l d ∨ ((∀ x ∈ l, ¬ F x) ∧ FirstFailing F m d) := by
  induction l with
  | nil => exact .inr ⟨fun x hx => absurd hx List.not_mem_nil, h⟩
  | cons x rest ih =>
    rcases h with first | ⟨hx, h⟩
    · exact .inl (.inl first)
    · exact (ih h).imp (fun h => .inr ⟨hx, h⟩) fun ⟨hrest, h⟩ => ⟨List.forall_mem_cons.mpr ⟨hx, hrest⟩, h⟩

theorem firstFailure_of_firstFailing {F : Detail → Prop} {l : List (Bool × Detail)} {d : Detail}
    (h : ∀ x ∈ l, x.1 = true ↔ F x.2) (first : FirstFailing F (l.map Prod.snd) d) : firstFailure l = some d := by
  induction l with
  | nil => exact first.elim
  | cons x rest ih =>
    obtain ⟨bad, y⟩ := x
    obtain ⟨hx, hrest⟩ := List.forall_mem_cons.mp h
    rcases first with ⟨fails, rfl⟩ | ⟨passes, first⟩
    · rw [firstFailure, if_pos (hx.mpr fails)]
    · rw [firstFailure, if_neg (mt hx.mp passes)]
      exact ih hrest first

theorem continueKind_iff (k : RecordKind) (r : PassRecord) (s : State) :
    (s.px.role == .continuation && k != .weld) = true ↔ Fails s k r .continueKind := by
  simp [Fails]

theorem fieldRange_iff (k : RecordKind) (r : PassRecord) (s : State) :
    (!fieldsOk s.px.role k r) = true ↔ Fails s k r .fieldRange := by
  simp [Fails, ← fieldsOk_iff]

theorem aheadOf_eq_false_iff (d : Direction) (a x : Nat) : aheadOf d a x = false ↔ ¬ Ahead d a x := by
  rw [← aheadOf_iff, Bool.not_eq_true]

theorem any_id_iff (l : List OpenJoint) (i : Nat) : l.any (fun e => e.id == i) = true ↔ i ∈ l.map (fun e => e.id) := by
  simp

/-- R77, R78: with p known each check of `judgeAt` is the one its detail names. -/
theorem judgeAt_of_firstFailing {k : RecordKind} {r : PassRecord} {p : Nat} {d : Detail} (hp : s.tg.p = some p)
    (h : FirstFailing (Fails s k r) checkOrder d) : judgeAt s k r p = some d := by
  have begins : (if s.px.role == .fresh then r.start else p) = weldFrom s r p := by simp [weldFrom]
  simp only [judgeAt, weldDirection_eq_weldHeading, begins]
  refine firstFailure_of_firstFailing ?_ h
  simp only [List.forall_mem_cons, List.not_mem_nil, false_implies, implies_true, and_true]
  refine ⟨continueKind_iff k r s, fieldRange_iff k r s, ?startMismatch, ?zeroLength, ?direction, ?railRange, ?pathOpen,
    ?jointGeometry, ?jointPartner, ?jointDuplicate, ?jointReused⟩
  all_goals simp only [Fails, hp, Option.some.injEq, exists_eq_left', reduceCtorEq, false_and, false_or, Bool.and_eq_true,
    Bool.or_eq_true, beq_iff_eq, bne_iff_ne, Bool.not_eq_true', decide_eq_true_eq, hasStart_iff, travels_iff, and_assoc,
    aheadOf_eq_false_iff, any_id_iff]
  case pathOpen => exact and_congr_right fun _ => openingCheck _ _ _
  case jointGeometry => simp only [leadGeometryBad_iff, trailGeometryBad_iff, and_or_left]
  case jointPartner => simp only [Option.isNone_iff_eq_none, and_or_left]
  case jointReused => simp only [Option.any_eq_true, List.contains_iff_mem, and_or_left]

/-- R77: with p unknown a WELD, DRY or MOVE fails START_MISMATCH at the latest, and a PAUSE has only the first two checks to
fail. -/
theorem firstFailing_of_unknown {k : RecordKind} {r : PassRecord} {d : Detail} (hp : s.tg.p = none)
    (h : FirstFailing (Fails s k r) checkOrder d) :
    FirstFailing (Fails s k r) [.continueKind, .fieldRange, .startMismatch] d := by
  rcases FirstFailing.of_append (l := [.continueKind, .fieldRange, .startMismatch]) h with first | ⟨passes, rest⟩
  · exact first
  · obtain ⟨later, fails⟩ := rest.fails
    have stays : ¬ (k = .weld ∨ k = .dry ∨ k = .move) := fun travels =>
      passes .startMismatch (by simp) (.inl ⟨hp, travels⟩)
    simp only [not_or] at stays
    obtain ⟨weld, dry, move⟩ := stays
    cases d <;> simp [Fails, hp, weld, dry, move] at later fails

/-- R77, R78: a record is judged by the first of its checks that fails. -/
theorem judgeRecord_of_firstFailing {k : RecordKind} {r : PassRecord} {d : Detail}
    (h : FirstFailing (Fails s k r) checkOrder d) : judgeRecord s k r = some d := by
  unfold judgeRecord
  split
  · next p hp => exact judgeAt_of_firstFailing hp h
  · next hp =>
    refine firstFailure_of_firstFailing ?_ (firstFailing_of_unknown hp h)
    simp only [List.forall_mem_cons, List.not_mem_nil, false_implies, implies_true, and_true]
    refine ⟨continueKind_iff k r s, fieldRange_iff k r s, ?_⟩
    simp only [travels_iff, Fails, hp, true_and, reduceCtorEq, false_and, exists_false, or_false]

end Sys2Proof.Machine

namespace Sys2Proof.Machine

variable {s t : State}

/-! ### A fetch that fails, in either role (R79) -/

/-- R79: what a failed fetch has done when the head has been asked for its normal retract. -/
structure RetractAsked (d : Detail) (s t : State) : Prop where
  kept : Keeps [.tg, .px, .hs, .ju, .su, .pli] s t
  line : LineKeeps s.pli t.pli
  flags : ∀ f, t.flag f = (s.flag f || decide (f = .programCheck))
  resetPending : t.su.lineResetPending = s.su.lineResetPending
  travel : t.tg = withdrawn s.tg
  executor : t.px = { s.px with state := .awaitHeadEnd, decided := some ⟨.programCheck, some d⟩, passed := false }
  retracts : s.hs.state = .stirring → s.tg.v = 0 →
    LeftStirring s t.ju ∧ t.hs = { s.hs with state := .retracting, phase := 0, spindle := 0, trim := 0 }

/-- R79: in the continuation role the end is awaited, and at rest the chain ends at once. -/
theorem programCheck_of_continuation (d : Detail) (hr : s.px.role = .continuation) :
    ∃ v, RetractAsked d s v
      ∧ programCheck d s = if atRest v then closeStopping ⟨.programCheck, some d⟩ v else v := by
  obtain ⟨l, raised, line⟩ := raise_eq .programCheck (s.withPx { s.px with passed := false })
  obtain ⟨l', waits, line'⟩ := setExecutor_eq .awaitHeadEnd (decideEnd ⟨.programCheck, some d⟩
    (withdrawTarget (raise .programCheck (s.withPx { s.px with passed := false }))))
  rw [raised] at waits line'
  obtain ⟨u, hu⟩ : ∃ u, u = setExecutor .awaitHeadEnd (decideEnd ⟨.programCheck, some d⟩
    (withdrawTarget (raise .programCheck (s.withPx { s.px with passed := false })))) := ⟨_, rfl⟩
  have role : (raise .programCheck (s.withPx { s.px with passed := false })).px.role = .continuation := by rw [raised]; exact hr
  refine ⟨normalRetract u, ?_, ?_⟩
  · rw [raised] at hu
    rw [waits] at hu
    obtain ⟨h, j, l'', retract, line'', -, retracts, -⟩ := normalRetract_eq (s := u) (by rw [hu]; rfl)
    rw [hu] at retracts line''
    rw [retract, hu]
    refine ⟨fun x hx => by cases x <;> simp [Part.same, decideEnd, withdrawTarget, State.withPx, State.withTg] at hx ⊢,
      (line.trans line').trans line'', fun f => flag_raised _ _ _, rfl, rfl, rfl, fun stirring standing => ?_⟩
    obtain ⟨left, head⟩ := retracts (by exact congrArg HeadState.working stirring) (.inr standing)
    exact ⟨left.congr rfl rfl rfl rfl, head⟩
  · unfold programCheck
    extract_lets e x v w y
    split
    · next hc => exact absurd (role.symm.trans hc) (by decide)
    · rw [hu]

theorem RetractAsked.calm {d : Detail} (h : RetractAsked d s t) : Calm [.programCheck] s t :=
  ⟨h.kept.mono (by rfl), fun f hf => by rw [h.flags, decide_eq_false (by simpa using hf), Bool.or_false],
    h.resetPending, h.line⟩

theorem withPx_calm (x : PassExecutor) (s : State) : Calm [] s (s.withPx x) :=
  Calm.of_su (withPx_keeps s x) (by rfl) rfl rfl

theorem programCheck_calm (d : Detail) (h : s.su.lineResetPending = false) :
    Calm [.programCheck, .jointVoided] s (programCheck d s) := by
  have closes {v : State} (calm : Calm [.programCheck] s v) :
      Calm [.programCheck, .jointVoided] s (closeStopping ⟨.programCheck, some d⟩ v) :=
    (calm.mono (by simp)).trans ((closeStopping_calm _ (calm.noReset h)).mono (by simp))
  cases hr : s.px.role with
  | fresh =>
    rw [programCheck_of_fresh d hr]
    exact closes (((withPx_calm { s.px with passed := false } s).mono (List.nil_subset _)).trans (raise_calm .programCheck _))
  | continuation =>
    obtain ⟨v, asked, he⟩ := programCheck_of_continuation d hr
    rw [he]
    split
    · exact closes asked.calm
    · exact asked.calm.mono (by simp)

/-- R79: whatever the role, a fetch that fails sets PROGRAM_CHECK and withdraws the target. -/
theorem programCheck_withdraws (d : Detail) (h : s.su.lineResetPending = false) :
    (programCheck d s).flag .programCheck = true ∧ (programCheck d s).tg = withdrawn s.tg := by
  cases hr : s.px.role with
  | fresh => exact ⟨(programCheck_failed d hr h).flag, (programCheck_failed d hr h).travel⟩
  | continuation =>
    obtain ⟨v, asked, he⟩ := programCheck_of_continuation d hr
    have flag : v.flag .programCheck = true := by simp [asked.flags]
    have noReset := asked.resetPending.trans h
    rw [he]
    split
    · refine ⟨((closeStopping_calm _ noReset).flags .programCheck (by simp)).trans flag, ?_⟩
      rw [(closeStopping_endsAtOnce rfl noReset).travel, asked.travel]
      rfl
    · exact ⟨flag, asked.travel⟩

/-- R79, R114: with the head STIRRING and the carriage standing the end is awaited. -/
theorem programCheck_of_stirring (d : Detail) (hr : s.px.role = .continuation) (hs : s.hs.state = .stirring)
    (hv : s.tg.v = 0) : RetractAsked d s (programCheck d s) := by
  obtain ⟨v, asked, he⟩ := programCheck_of_continuation d hr
  have working : atRest v = false := by simp [atRest, (asked.retracts hs hv).2]
  rw [he, working, if_neg Bool.false_ne_true]
  exact asked

/-! ### A fetch ends (R76 to R81) -/

theorem setIndex_calm (i : Nat) (s : State) : Calm [] s (setIndex i s) := by
  obtain ⟨l, he, hl⟩ := setIndex_eq i s
  exact Calm.of_su (setIndex_keeps i s) (by rfl) (by rw [he]) (by rw [he]; exact hl)

theorem notifyFetch_calm (r : PassRecord) (s : State) : Calm [.notify] s (notifyFetch r s) := by
  obtain ⟨l, he, hl⟩ := notifyFetch_eq r s
  refine ⟨(notifyFetch_keeps r s).mono (by rfl), fun f hf => ?_, by rw [he]; rfl, by rw [he]; exact hl⟩
  rw [he]
  refine (flag_raisedIf _ _ _ _).trans ?_
  rw [decide_eq_false (by simpa using hf), Bool.and_false, Bool.or_false]
  rfl

/-- The flags that a fetch may set as it ends. -/
def fetchFlags : List AttentionFlag := [.notify, .programCheck, .fault, .jointVoided]

theorem judgeAndStart_calm (k : RecordKind) (r : PassRecord) (h : s.su.lineResetPending = false) :
    Calm fetchFlags s (judgeAndStart k r s) := by
  unfold judgeAndStart
  split
  · exact (programCheck_calm _ h).mono (by simp [fetchFlags])
  · exact ((withPx_calm _ s).mono (List.nil_subset _)).trans ((startRecord_calm r (by exact h)).mono
      (free' := fetchFlags) (by simp [fetchFlags]))

theorem followBranch_calm (r : PassRecord) (h : s.su.lineResetPending = false) :
    Calm fetchFlags s (followBranch r s) := by
  unfold followBranch
  split
  · exact (programCheck_calm _ h).mono (by simp [fetchFlags])
  · extract_lets u target x v
    have read : Calm fetchFlags s v :=
      (((setIndex_calm r.rate s).trans (withPx_calm _ u)).mono (List.nil_subset _)).trans
        ((notifyFetch_calm target _).mono (by simp [fetchFlags]))
    have noReset := read.noReset h
    split
    · exact read.trans ((programCheck_calm _ noReset).mono (by simp [fetchFlags]))
    · exact read.trans ((programCheck_calm _ noReset).mono (by simp [fetchFlags]))
    · exact read.trans (judgeAndStart_calm _ _ noReset)

theorem completeFetch_calm (h : s.su.lineResetPending = false) : Calm fetchFlags s (completeFetch s) := by
  unfold completeFetch
  extract_lets first x u
  have before : Calm fetchFlags s u := (withPx_calm _ s).mono (List.nil_subset _)
  have failed (d : Detail) := before.trans ((programCheck_calm d (before.noReset h)).mono (free' := fetchFlags)
    (by simp [fetchFlags]))
  split
  · exact failed _
  · split
    · exact failed _
    · split
      · exact failed _
      · exact before.trans (followBranch_calm _ (before.noReset h))
    · exact before.trans (judgeAndStart_calm _ _ (before.noReset h))

/-! ### Which fetches fail (R76, R77) -/

/-- The fetch in progress fails with detail `d` in the record `r` at index `i`: the record that does the work fails a check or
is the BRANCH that a BRANCH leads to, or the BRANCH in hand is not to be followed. -/
def FetchFails (s : State) (r : PassRecord) (i : Nat) (d : Detail) : Prop :=
  WorksFrom s r i ∧ FailsWith s r d
    ∨ WorksFrom s r i ∧ Branches s ∧ r.kind = some .branch ∧ d = .branchToBranch
    ∨ s.px.record = some r ∧ r.kind = some .branch ∧ i = s.px.index
      ∧ (s.px.firstRecord = true ∧ d = .branchFirst ∨ s.px.firstRecord = false ∧ 511 < r.rate ∧ d = .fieldRange)

/-- The state in which a fetch that ends at the record `r` with index `i` fails. -/
def fetchFailing (r : PassRecord) (i : Nat) (u : StatusUnit) (l : PeerLine) (s : State) : State :=
  { s with px := { s.px with index := i, firstRecord := false, record := some r }, su := u, pli := l }

theorem kind_eq_none_of_unknown {r : PassRecord} (h : r.kindCode = 0 ∨ 5 < r.kindCode) : r.kind = none := by
  unfold PassRecord.kind
  rcases h with zero | above
  · rw [zero]
    rfl
  · obtain ⟨n, hn⟩ := Nat.exists_eq_add_of_le' (show 6 ≤ r.kindCode from above)
    rw [hn]
    rfl

theorem fetchFailing_inHand {r : PassRecord} (hr : s.px.record = some r) :
    fetchFailing r s.px.index s.su s.pli s = s.withPx { s.px with firstRecord := false } := by
  rw [fetchFailing, ← hr]
  rfl

/-- R76: a record in hand that names no kind. -/
theorem completeFetch_of_unknown {r : PassRecord} (hr : s.px.record = some r) (hk : r.kind = none) :
    completeFetch s = programCheck .invalidKind (fetchFailing r s.px.index s.su s.pli s) := by
  rw [fetchFailing_inHand hr]
  unfold completeFetch
  extract_lets first x u
  rw [show u.px.record = some r from hr]
  simp only [hk]
  rfl

/-- R76: a BRANCH in hand fails as the first record, and is followed as any other. -/
theorem completeFetch_of_branch {r : PassRecord} (hr : s.px.record = some r) (hk : r.kind = some .branch) :
    completeFetch s = if s.px.firstRecord then programCheck .branchFirst (fetchFailing r s.px.index s.su s.pli s)
      else followBranch r (fetchFailing r s.px.index s.su s.pli s) := by
  rw [fetchFailing_inHand hr]
  unfold completeFetch
  extract_lets first x u
  rw [show u.px.record = some r from hr]
  simp only [hk]
  rfl

/-- R76: a BRANCH is followed to a target that does no work. -/
theorem followBranch_of_idle {b : PassRecord} {d : Detail} (hle : b.rate ≤ 511)
    (h : (readRecord s.pm b.rate).kind = none ∧ d = .invalidKind
      ∨ (readRecord s.pm b.rate).kind = some .branch ∧ d = .branchToBranch) :
    ∃ l, followBranch b s = programCheck d { s with
      px := { s.px with index := b.rate, record := some (readRecord s.pm b.rate) }
      su := noticed (readRecord s.pm b.rate) b.rate s.su, pli := l } := by
  obtain ⟨l, hi, -⟩ := setIndex_eq b.rate s
  obtain ⟨l', hn, -⟩ := notifyFetch_eq (readRecord s.pm b.rate) { s with
    px := { s.px with index := b.rate, record := some (readRecord s.pm b.rate) }, pli := l }
  refine ⟨l', ?_⟩
  unfold followBranch
  rw [if_neg (Nat.not_lt.mpr hle), hi]
  simp only [State.withPx]
  rw [hn]
  rcases h with ⟨hk, rfl⟩ | ⟨hk, rfl⟩
  · simp only [hk]
  · simp only [hk]

/-- R76: the record that does the work names no kind, or is a BRANCH that a BRANCH leads to. -/
theorem completeFetch_of_idle {r : PassRecord} {i : Nat} {d : Detail} (hw : WorksFrom s r i)
    (h : r.kind = none ∧ d = .invalidKind ∨ Branches s ∧ r.kind = some .branch ∧ d = .branchToBranch) :
    ∃ u l, completeFetch s = programCheck d (fetchFailing r i u l s) ∧ u.lineResetPending = s.su.lineResetPending := by
  rcases branches_of_target hw with ⟨hn, hr, -, rfl⟩ | ⟨-, hf, hle, rfl, b, hr, hbk, rfl⟩
  · rcases h with ⟨hk, rfl⟩ | ⟨hb, -⟩
    · exact ⟨s.su, s.pli, completeFetch_of_unknown hr hk, rfl⟩
    · exact absurd hb hn
  · obtain ⟨l, follows⟩ := followBranch_of_idle (s := fetchFailing b s.px.index s.su s.pli s) (d := d) hle
      (h.imp id fun h => h.2)
    rw [completeFetch_of_branch hr hbk, hf, if_neg Bool.false_ne_true, follows]
    exact ⟨_, l, rfl, rfl⟩

/-- R76, R77: the record that does the work fails a check. -/
theorem completeFetch_of_failsWith {r : PassRecord} {i : Nat} {d : Detail} (hw : WorksFrom s r i) (h : FailsWith s r d) :
    ∃ u l, completeFetch s = programCheck d (fetchFailing r i u l s) ∧ u.lineResetPending = s.su.lineResetPending := by
  rcases h with ⟨code, rfl⟩ | ⟨k, hk, hb, first⟩
  · exact completeFetch_of_idle hw (.inl ⟨kind_eq_none_of_unknown code, rfl⟩)
  · obtain ⟨u, l, judged, -, noticed⟩ := completeFetch_of_worksFrom hw hk hb
    have pending := congrArg StatusUnit.lineResetPending (fetchNoticed_rest noticed)
    refine ⟨u, l, ?_, pending⟩
    have fails : judgeRecord (fetchFailing r i u l s) k r = some d := judgeRecord_of_firstFailing first
    rw [judged]
    show judgeAndStart k r (fetchFailing r i u l s) = _
    rw [judgeAndStart, fails]

/-- R76: the BRANCH in hand is the first record, or leads past the last one. -/
theorem completeFetch_of_refused {r : PassRecord} {d : Detail} (hr : s.px.record = some r) (hk : r.kind = some .branch)
    (h : s.px.firstRecord = true ∧ d = .branchFirst ∨ s.px.firstRecord = false ∧ 511 < r.rate ∧ d = .fieldRange) :
    completeFetch s = programCheck d (fetchFailing r s.px.index s.su s.pli s) := by
  rw [completeFetch_of_branch hr hk]
  rcases h with ⟨hf, rfl⟩ | ⟨hf, past, rfl⟩
  · rw [hf, if_pos rfl]
  · rw [hf, if_neg Bool.false_ne_true, followBranch, if_pos past]

theorem completeFetch_of_fails {r : PassRecord} {i : Nat} {d : Detail} (h : FetchFails s r i d) :
    ∃ u l, completeFetch s = programCheck d (fetchFailing r i u l s) ∧ u.lineResetPending = s.su.lineResetPending := by
  rcases h with ⟨hw, h⟩ | ⟨hw, h⟩ | ⟨hr, hk, rfl, h⟩
  · exact completeFetch_of_failsWith hw h
  · exact completeFetch_of_idle hw (.inr h)
  · exact ⟨s.su, s.pli, completeFetch_of_refused hr hk h, rfl⟩

theorem fetchFailing_keeps (r : PassRecord) (i : Nat) (u : StatusUnit) (l : PeerLine) (s : State) :
    Keeps [.px, .su, .pli] s (fetchFailing r i u l s) :=
  fun x hx => by cases x <;> simp [Part.same, fetchFailing] at hx ⊢

/-- Settles O56: every failing fetch ends in `programCheck`, which acts by role. -/
theorem fetchChecksInOrder : Obligations.FetchChecksInOrder := by
  intro s hx hreset
  obtain ⟨l', settled, line'⟩ := settle_eq (completeFetch s)
  refine ⟨settle (completeFetch s), recordClose_of_fetching hx, ?_, fun r i d (h : FetchFails s r i d) => ?_⟩
  · rw [settled]
    exact (completeFetch_calm hreset).line.trans line'
  · obtain ⟨u, l, fails, pending⟩ := completeFetch_of_fails h
    have noReset := pending.trans hreset
    obtain ⟨flag, travel⟩ := programCheck_withdraws (s := fetchFailing r i u l s) d noReset
    have before := fetchFailing_keeps r i u l s
    have after : Keeps [.pli] (programCheck d (fetchFailing r i u l s)) (settle (completeFetch s)) := by
      rw [fails]
      exact settle_keeps _
    rw [settled, fails] at after ⊢
    refine ⟨flag, travel, fun hr => ?_, fun hr stirring standing => ?_⟩
    · have failed := programCheck_failed (s := fetchFailing r i u l s) d hr noReset
      exact ⟨after.via (failed.kept.via (before.mono (by rfl)) (by rfl)) (by rfl), failed.station, failed.joints,
        positionReached s, fun p hp => positionReached_eq hp, failed.executor⟩
    · have asked := programCheck_of_stirring (s := fetchFailing r i u l s) d hr stirring standing
      obtain ⟨left, head⟩ := asked.retracts stirring standing
      exact ⟨after.via (asked.kept.via (before.mono (by rfl)) (by rfl)) (by rfl), left.congr rfl rfl rfl rfl, head,
        asked.executor⟩

end Sys2Proof.Machine

namespace Sys2Proof.Machine

variable {s t u : State}

/-! ### OVERRIDE (R74, R156) -/

theorem nearest_ne_self (lo hi x : Nat) : nearest lo hi x ≠ x ↔ x < lo ∨ hi < x := by
  unfold nearest
  split
  · omega
  · split <;> omega

/-- R74, R156: the percentage `x` of an OVERRIDE. -/
theorem overrideTaken_eq {f : ReceivedFrame} {x : Nat} (hx : fieldAt f.payload 0 1 = x) (s : State) :
    ∃ l, overrideTaken f s = { s with
      px := { s.px with pendingOverride := some (nearest 50 120 x) }
      su := { s.su with
        flags := if decide (nearest 50 120 x ≠ x) then s.su.flags ||| (1#14 <<< AttentionFlag.paramClamped.bit)
          else s.su.flags }
      pli := l } ∧ LineKeeps s.pli l := by
  simp only [overrideTaken, hx, clampNat_eq_nearest (show 50 ≤ 120 by decide)]
  exact raiseIf_eq _ _ _

/-- Settles O47. -/
theorem overrideClamped : Obligations.OverrideClamped := by
  intro s sender dest b taken
  have hexec : exec (.override (cellFrame .override sender dest [b])) s = .next (settle (overrideTaken _ (receptionEnds s))) :=
    congrArg Host.Outcome.next (onFrame_of_taken taken overrideTaken)
  obtain ⟨l, acted, line⟩ := overrideTaken_eq (f := ⟨FrameKind.override.cls, sender, dest, FrameKind.override.code, [b]⟩)
    (x := b.toNat) (by simp [fieldAt, natOfBytes]) (receptionEnds s)
  obtain ⟨l', settled, line'⟩ :=
    settle_eq (overrideTaken ⟨FrameKind.override.cls, sender, dest, FrameKind.override.code, [b]⟩ (receptionEnds s))
  rw [acted] at settled line'
  rw [acted, settled] at hexec
  refine ⟨_, hexec, fun x hx => by cases x <;> simp [Part.same, receptionEnds] at hx ⊢, ⟨fun f hf => ?_, rfl⟩,
    line.trans line', rfl, ?_⟩
  · refine (flag_raisedIf _ _ _ _).trans ?_
    simp only [List.mem_singleton.not.mp hf, decide_false, Bool.and_false, Bool.or_false]
    rfl
  · refine (flag_raisedIf _ _ _ _).trans ?_
    simp only [nearest_ne_self, decide_true, Bool.and_true]
    rfl

end Sys2Proof.Machine

namespace Sys2Proof.Machine

variable {s t u : State}

/-! ### The end of an event leaves the blocks alone (R154) -/

@[simp] theorem settle_tg (s : State) : (settle s).tg = s.tg := settle_keeps s .tg (by decide)
@[simp] theorem settle_px (s : State) : (settle s).px = s.px := settle_keeps s .px (by decide)
@[simp] theorem settle_hs (s : State) : (settle s).hs = s.hs := settle_keeps s .hs (by decide)
@[simp] theorem settle_ju (s : State) : (settle s).ju = s.ju := settle_keeps s .ju (by decide)
@[simp] theorem settle_dp (s : State) : (settle s).dp = s.dp := settle_keeps s .dp (by decide)
@[simp] theorem settle_su (s : State) : (settle s).su = s.su := settle_keeps s .su (by decide)
@[simp] theorem settle_freeCount (s : State) : (settle s).freeCount = s.freeCount := settle_keeps s .freeCount (by decide)
@[simp] theorem State.flag_settle (f : AttentionFlag) (s : State) : (settle s).flag f = s.flag f := by simp [State.flag]

/-! ### Feedback lost (R176) -/

theorem feedbackLostDue_iff (s : State) : feedbackLostDue s = true
    ↔ s.su.station = .running ∧ 8 ≤ oneOn s.dp.age ∧ s.dp.lostReported = false := by
  simp [feedbackLostDue, countUp_eq_oneOn, Config.feedbackLostAge, and_assoc]

/-- The Drive Port with the feedback age one on and the loss reported. -/
def lossReported (s : State) : State :=
  s.withDp { s.dp with age := oneOn s.dp.age, lostReported := true }

theorem portWork_of_due (h : feedbackLostDue s = true) : portWork s = faultCause .feedbackLost (lossReported s) := by
  rw [portWork, if_pos h, countUp_eq_oneOn, lossReported]

/-- R80, R82, R86, R90, R176: what the report of lost feedback does to a chain under way. -/
theorem lossReported_causes (hi : s.px.state ≠ .idle) (hs : s.px.state ≠ .stopped) (h : s.su.lineResetPending = false) :
    CauseReady s.tg [.fault] s (raise .fault (lossReported s))
      ∧ CauseOutcome ⟨.fault, some .feedbackLost⟩ .feedbackLost (raise .fault (lossReported s))
        (faultCause .feedbackLost (lossReported s)) := by
  have held : CauseReady s.tg [] s (lossReported s) := ⟨rfl, rfl, rfl, rfl, rfl, rfl, rfl, fun _ _ => rfl, rfl⟩
  have ready := held.raise .fault
  have noReset := (raise_calm .fault (lossReported s)).noReset h
  exact ⟨ready, stoppingCause_outcome rfl noReset (by rw [ready.executor]; exact hi) (by rw [ready.executor]; exact hs)⟩

/-- Settles O31. -/
theorem feedbackLostStops : Obligations.FeedbackLostStops := by
  refine ⟨fun s hr hl ha hi hs h => ?_, fun s h => ?_⟩
  · obtain ⟨ready, outcome⟩ := lossReported_causes hi hs h
    have due : feedbackLostDue s = true := (feedbackLostDue_iff s).mpr ⟨hr, ha, hl⟩
    have hexec : exec .feedbackLost s = .next (settle (faultCause .feedbackLost (lossReported s))) := by
      show Host.Outcome.next _ = _
      rw [if_pos due, portWork_of_due due]
    have calm : Calm [.fault, .jointVoided] (lossReported s) (faultCause .feedbackLost (lossReported s)) :=
      ((raise_calm .fault _).mono (by simp)).trans (outcome.calm.mono (by simp))
    refine ⟨_, hexec, ?_, ?_, ?_, calm.settle.line, (outcome.causeActs ready).settle⟩
    · rw [State.flag_settle, outcome.calm.flags .fault (by simp), State.flag_raise]
      simp
    · exact calm.settle.kept .dp (by simp [stopParts])
    · exact (withDp_keeps s _).then calm.settle.kept (by rfl) (by rfl)
  · have undue : ¬ feedbackLostDue s = true := by
      rw [feedbackLostDue_iff]
      rintro ⟨hr, ha, hl⟩
      rcases h with h | h | h
      · exact h hr
      · rw [hl] at h
        cases h
      · omega
    show Host.Outcome.next _ = _
    rw [if_neg undue]

end Sys2Proof.Machine

namespace Sys2Proof.Machine

variable {s t u : State}

/-! ### HALT (R93) -/

/-- A chain that ends at once from the state `s` with an end decided and the target withdrawn ends at once from `s`. -/
theorem EndsAtOnce.of_decided {e : Decision} {x : ExecutorState} {d : Option Decision} {l : PeerLine}
    (h : EndsAtOnce e u t) (hl : LineKeeps s.pli l)
    (hu : u = { s with tg := withdrawn s.tg, px := { s.px with state := x, decided := d }, pli := l }) :
    EndsAtOnce e s t := by
  have before : Calm [.jointVoided] s u := by
    refine Calm.of_su (l := [.tg, .px, .pli]) ?_ (by rfl) (by rw [hu]) (by rw [hu]; exact hl)
    rw [hu]
    exact fun x hx => by cases x <;> simp [Part.same] at hx ⊢
  obtain ⟨travel, head, station, joints, ⟨y, z, hy, executor⟩, calm⟩ := h
  rw [hu] at travel head joints hy executor
  exact ⟨travel, head, station, joints, ⟨y, z, hy, executor⟩, before.trans calm⟩

/-- R93: a HALT that finds nothing under way ends the chain at once, with no LINE RESET pending. -/
theorem haltTaken_endsAtOnce (h : s.px.state = .waitSlot ∨ (s.px.state = .fetching ∧ s.px.role = .fresh)
      ∨ (s.px.state = .active ∧ s.tg.v = 0 ∧ s.hs.state = .parked)) (hp : s.su.lineResetPending = false) :
    EndsAtOnce ⟨.halted, none⟩ s (haltTaken s) := by
  rcases h with h | ⟨h, hr⟩ | ⟨h, hv, hh⟩
  · rw [show haltTaken s = closeStopping ⟨.halted, none⟩ s by simp only [haltTaken, h]]
    exact closeStopping_endsAtOnce rfl hp
  · rw [show haltTaken s = closeStopping ⟨.halted, none⟩ s by simp only [haltTaken, h, hr]]
    exact closeStopping_endsAtOnce rfl hp
  · obtain ⟨l, he, hl⟩ := setExecutor_eq .halting (decideEnd ⟨.halted, none⟩ (withdrawTarget s))
    obtain ⟨u, hu⟩ : ∃ u, u = setExecutor .halting (decideEnd ⟨.halted, none⟩ (withdrawTarget s)) := ⟨_, rfl⟩
    have halts : haltTaken s = closeStopping ⟨.halted, none⟩ u := by
      rw [haltTaken_of_underRecord (.inl h), normalRetract_of_parked (by exact hh), ← hu,
        closeIfRest_of_rest (by rw [hu, he]; exact hv) (by rw [hu, he]; exact hh)]
      exact closeRecord_of_stopping (by rw [hu, he]; rfl) rfl
    rw [halts]
    rw [he] at hu
    exact (closeStopping_endsAtOnce rfl (by rw [hu]; exact hp)).of_decided hl hu

theorem halt_exec {sender dest : Nat} (h : Taken .halt sender dest [] s) :
    exec (.halt (cellFrame .halt sender dest [])) s = .next (settle (haltTaken (receptionEnds s))) :=
  congrArg Host.Outcome.next (onFrame_of_taken h _)

/-- R93: a HALT outside a chain does nothing. -/
theorem haltTaken_of_resting (h : s.px.state = .idle ∨ s.px.state = .stopped) : haltTaken s = s := by
  rcases h with h | h <;> simp only [haltTaken, h]

/-- Settles O60. -/
theorem haltByState : Obligations.HaltByState := by
  intro s sender dest taken
  rw [halt_exec taken]
  refine ⟨fun h quiet => ?_, fun h hp => ?_, fun h moving => ?_, fun e h hd hn => ?_⟩
  · have same : haltTaken (receptionEnds s) = receptionEnds s := by
      rcases h with h | h | h | ⟨h, e, hd, h1, h2, h3⟩
      · exact haltTaken_of_resting (.inl h)
      · exact haltTaken_of_resting (.inr h)
      · exact haltTaken_of_stopping (.inl h)
      · exact haltTaken_of_stopping (.inr ⟨h, e, hd, by simp [NormalEnd, h1, h2, h3]⟩)
    rw [same, settle_of_quiet (s := receptionEnds s) quiet]
    rfl
  · obtain ⟨travel, head, station, joints, executor, calm⟩ := haltTaken_endsAtOnce (s := receptionEnds s) h hp
    have kept : Keeps [.hs, .tg, .px, .ju, .su, .freeCount, .pli] s (settle (haltTaken (receptionEnds s))) :=
      (withPli_keeps s _).then calm.settle.kept (by rfl) (by rfl)
    refine ⟨_, rfl, kept.drop (by simpa [Part.same] using head), calm.settle.line, ?_, ?_, ?_, ?_⟩
    · rw [settle_su, station]
    · rw [settle_tg, travel]
      rfl
    · rw [settle_ju, joints]
      rfl
    · rw [settle_px]
      exact executor
  · obtain ⟨kept, line, slows⟩ := haltTaken_slows (s := receptionEnds s) h moving
    refine ⟨_, rfl, (settle_keeps _).via ((withPli_keeps s _).then kept (by rfl) (by rfl)) (by rfl),
      line.trans (lineKeeps_settle _), ?_⟩
    obtain ⟨travel, executor, pending, retracts, stays⟩ := slows
    simp only [HaltSlows, settle_tg, settle_px, settle_hs, settle_ju]
    exact ⟨travel, executor, pending, fun hw hs => ⟨(retracts hw hs).1.congr rfl rfl rfl rfl, (retracts hw hs).2⟩, stays⟩
  · obtain ⟨l, he, hl⟩ := haltTaken_of_normal (s := receptionEnds s) h hd hn
    obtain ⟨l', settled, hl'⟩ := settle_eq (haltTaken (receptionEnds s))
    rw [he] at settled hl'
    rw [he, settled]
    exact ⟨_, rfl, fun x hx => by cases x <;> simp [Part.same, receptionEnds] at hx ⊢, hl.trans hl', rfl⟩

end Sys2Proof.Machine

namespace Sys2Proof.Machine

variable {s t u : State}

/-! ### RECORD_CLOSE (R89 to R92) -/

theorem executorCloses_of_waiting (h : s.px.state = .awaitHeadEnd ∨ s.px.state = .halting) : executorCloses s = closeIfRest s := by
  have waits : waitingForRest s = true := by rcases h with h | h <;> simp [waitingForRest, h]
  rw [executorCloses, if_pos waits]

/-- R89: an end that is decided where no flag carries the chain on. -/
theorem nextFetch_eq_none {r : PassRecord} {k : EndKind} (i : Nat)
    (complete : k = .complete → r.chain = false ∧ r.cont = false)
    (short : k = .short → r.tolerate = false ∨ (r.chain = false ∧ r.cont = false))
    (void : k = .voidAlt → r.chain = false ∧ r.cont = false) : nextFetch k (some r) i = none := by
  cases k with
  | complete => simp [nextFetch, PassRecord.continues, PassRecord.chains, complete rfl]
  | short => rcases short rfl with h | h <;> simp [nextFetch, PassRecord.continues, PassRecord.chains, PassRecord.tolerates, h]
  | voidAlt => simp [nextFetch, PassRecord.continues, PassRecord.chains, void rfl]
  | _ => rfl

/-- R91: the remaining distance of a record in hand, p being known. -/
theorem remainingDistance_of_record {r : PassRecord} {p : Nat} (hr : s.px.record = some r) (hp : s.tg.p = some p) :
    remainingDistance s = if s.px.passed && r.travelKind.isSome then distance r.endPos p else 0 := by
  simp only [remainingDistance, hr, positionReached_eq hp]

theorem travelKind_isSome_iff (r : PassRecord) :
    r.travelKind.isSome = true ↔ r.kind = some .weld ∨ r.kind = some .dry ∨ r.kind = some .move := by
  unfold PassRecord.travelKind
  split <;> simp_all

/-- R89: at rest a decided end that no flag carries on ends the chain. -/
theorem closeIfRest_ended {e : Decision} {p : Nat} (hd : s.px.decided = some e) (hv : s.tg.v = 0)
    (hh : s.hs.state = .parked) (hn : nextFetch e.kind s.px.record s.px.index = none) (hp : s.tg.p = some p)
    (h : s.su.lineResetPending = false) : Ended e p (remainingDistance s) s (closeIfRest s) := by
  have closes : closeIfRest s = closeStopping e s := by
    rw [closeIfRest_of_rest hv hh]
    simp only [closeRecord, hd, hn]
  rw [closes]
  exact closeStopping_ended hp h

/-- R128: the flags after a record's close. -/
theorem Ended.flag {e : Decision} {p d : Nat} (h : Ended e p d s t) (f : AttentionFlag) :
    t.flag f = (s.flag f || ((hasPendingLead s.ju && e.kind != .complete) && decide (f = .jointVoided))) := by
  rw [State.flag, h.status]
  exact flag_raisedIf _ _ _ _

/-- Settles O58. -/
theorem recordCloseEndsChain : Obligations.RecordCloseEndsChain := by
  intro s r e hx hd hr
  have hexec : exec .recordClose s = .next (settle (closeIfRest s)) :=
    congrArg (fun x => Host.Outcome.next (settle x)) (executorCloses_of_waiting hx)
  rw [hexec]
  refine ⟨fun moving quiet => by rw [closeIfRest_of_moving moving, settle_of_quiet quiet],
    fun p hv hh hp hreset complete short void => ?_⟩
  have ended := (closeIfRest_ended hd hv hh (by rw [hr]; exact nextFetch_eq_none _ complete short void) hp hreset).settle
  refine ⟨_, rfl, ended.kept, ended.line, ended.travel, ended.joints, fun f hf => ?_, ?_, remainingDistance s,
    fun passed kind => ?_, fun h => ?_, fun normal => ?_, fun h1 h2 h3 => ?_⟩
  · rw [ended.flag, decide_eq_false hf, Bool.and_false, Bool.or_false]
  · rw [ended.flag, ← hasPendingLead_iff]
    simp [and_comm]
  · rw [remainingDistance_of_record hr hp, passed, (travelKind_isSome_iff r).mpr kind]
    rfl
  · rw [remainingDistance_of_record hr hp, if_neg]
    rw [Bool.and_eq_true, travelKind_isSome_iff]
    rintro ⟨passed, kind⟩
    rcases h with h | h <;> simp_all
  · have closing := (normal_iff e).mpr normal
    rw [ended.status, ended.executor, closing]
    exact ⟨rfl, rfl⟩
  · have closing : e.kind.normal = false := Bool.eq_false_iff.mpr (mt (normal_iff e).mp (by simp [NormalEnd, h1, h2, h3]))
    rw [ended.status, ended.executor, closing]
    exact ⟨rfl, rfl⟩

end Sys2Proof.Machine

namespace Sys2Proof.Machine

variable {s t u v : State}

/-! ### The chain goes on (R75, R76, R89) -/

/-- R89: the flags of a WELD that carry a chain on to a fresh fetch of index `i`. -/
theorem nextFetch_of_weld {r : PassRecord} {k : EndKind} {i j : Nat} (hk : r.kind = some .weld)
    (h : k = .complete ∧ r.chain = true ∧ r.cont = false ∧ i = j + 1
      ∨ k = .short ∧ r.tolerate = true ∧ (r.chain = true ∨ r.cont = true) ∧ i = j + 1
      ∨ k = .voidAlt ∧ (r.chain = true ∨ r.cont = true) ∧ i = j + 2) :
    nextFetch k (some r) j = some (.fresh, i) := by
  rcases h with ⟨rfl, hc, hn, rfl⟩ | ⟨rfl, ht, hc, rfl⟩ | ⟨rfl, hc, rfl⟩
  · simp [nextFetch, PassRecord.continues, PassRecord.chains, hk, hc, hn]
  · simp [nextFetch, PassRecord.continues, PassRecord.chains, PassRecord.tolerates, hk, hc, ht]
  · simp [nextFetch, PassRecord.continues, PassRecord.chains, hk, hc]

theorem NextFetched.settle {i p : Nat} (h : NextFetched i p s t) : NextFetched i p s (settle t) := by
  simpa only [NextFetched, Notified, settle_px, settle_su, State.flag_settle] using h

/-! ### A WELD with CONTINUE reports its path end (R84, R102, R110) -/

/-- R84: a WELD with CONTINUE closes at once and its successor's fetch begins as a continuation. -/
theorem executorPathEnd_continues {r : PassRecord} (ha : s.px.state = .active) (hr : s.px.record = some r)
    (hc : r.continues = true) :
    ∃ l, executorPathEnd s = beginFetch .continuation (s.px.index + 1) { s with
        tg := withdrawn s.tg, ju := afterClose .complete s.ju
        px := { s.px with decided := some ⟨.complete, none⟩, firstRecord := false }, pli := l } ∧ LineKeeps s.pli l := by
  obtain ⟨l, closed, line⟩ := closeJoints_eq .complete (decideEnd ⟨.complete, none⟩ s)
  refine ⟨l, ?_, line⟩
  have next : nextFetch .complete s.px.record s.px.index = some (.continuation, s.px.index + 1) := by
    simp [nextFetch, hr, hc]
  have closes : executorPathEnd s = closeRecord (decideEnd ⟨.complete, none⟩ s) := by
    unfold executorPathEnd
    rw [if_pos ha]
    exact if_pos (by simp [decideEnd, hr, hc])
  have fetches : closeRecord (decideEnd ⟨.complete, none⟩ s) = beginFetch .continuation (s.px.index + 1)
      ((withdrawTarget (closeJoints .complete (decideEnd ⟨.complete, none⟩ s))).withPx
        { (decideEnd ⟨.complete, none⟩ s).px with firstRecord := false }) := by
    unfold closeRecord
    simp only [decideEnd, State.withPx_px, next]
  rw [closes, fetches, closed]
  simp only [bne_self_eq_false, Bool.and_false, Bool.false_eq_true, if_false]
  rfl

/-- R79: a continuation's fetch that fails with the head STIRRING and the carriage standing touches one flag alone. -/
theorem programCheck_flagsKeep {d : Detail} (hr : s.px.role = .continuation) (hs : s.hs.state = .stirring) (hv : s.tg.v = 0) :
    FlagsKeep [.programCheck] s (programCheck d s) := by
  unfold programCheck
  extract_lets e x u v w
  have raised : FlagsKeep [.programCheck] s u := raise_flagsKeep .programCheck (s.withPx { s.px with passed := false })
  have before : Keeps [.px, .su, .pli] s u := (withPx_keeps s _).then (raise_keeps .programCheck _) (by rfl) (by rfl)
  have asks : Keeps [.tg, .px, .pli] u v :=
    (setExecutor_keeps _ _).via ((decideEnd_keeps e _).via ((withdrawTarget_keeps u).mono (by rfl)) (by rfl)) (by rfl)
  have stirring : v.hs.state = .stirring := by
    rw [show v.hs = s.hs from (asks .hs (by decide)).trans (before .hs (by decide)), hs]
  split
  · next fresh =>
    have px : u.px = { s.px with passed := false } := raise_keeps .programCheck _ .px (by decide)
    rw [px, hr] at fresh
    cases fresh
  · have su : w.su = u.su := (normalRetract_keeps v .su (by decide)).trans (asks .su (by decide))
    have standing : ¬ (v.hs.state = .stirring ∧ 0 < v.tg.v) := by
      rw [show v.tg = withdrawn s.tg from (setExecutor_keeps _ _ .tg (by decide)).trans
        (congrArg withdrawn (before .tg (by decide)))]
      exact fun h => absurd h.2 (by simp [withdrawn, hv])
    have retracts : w = enterRetracting v := (if_neg standing).trans (if_pos (by rw [stirring]; rfl))
    have moving : atRest w = false := by
      obtain ⟨l, j, he, -, -⟩ := enterRetracting_eq v
      rw [retracts, he]
      simp [atRest]
    rw [moving, if_neg Bool.false_ne_true]
    exact ⟨fun f hf => by rw [State.flag, su]; exact raised.1 f hf, by rw [su]; exact raised.2⟩

/-- R76: the fetch of an index of 512 or more fails as it begins. -/
theorem beginFetch_fails (role : Role) {i : Nat} (hi : 512 ≤ i) (s : State) :
    ∃ l, beginFetch role i s = programCheck .indexRange { s with
        px := { s.px with state := .fetching, role := role, decided := none, record := none }, pli := l }
      ∧ LineKeeps s.pli l := by
  obtain ⟨l, he, hl⟩ := setExecutor_eq .fetching (s.withPx { s.px with role := role, decided := none })
  refine ⟨l, ?_, hl⟩
  unfold beginFetch
  rw [if_pos (show Config.recordCount ≤ i from hi), he]
  rfl

theorem Notified.mono {r : PassRecord} {i : Nat} {a b : List AttentionFlag} (h : Notified r i a s t) (sub : a ⊆ b) :
    Notified r i b s t :=
  ⟨h.1, h.2.1, fun f hf hb => h.2.2 f hf (fun ha => hb (sub ha))⟩

/-- With no release point passed the joints stay as they are. -/
theorem LeftStirring.eq_of_none_passed {j : JointUnit} (h : LeftStirring s j) (none : ∀ e, ¬ Passed s e) : j = s.ju := by
  have quiet : LeftStirring (s.withHs { s.hs with state := .parked }) j := {
    awaited := h.awaited, closedList := h.closedList, length := h.length
    passed := fun _ _ _ hp => nomatch hp.1
    others := fun i e hi _ => h.others i e hi (none e)
    released := fun ⟨_, _, hp⟩ => nomatch hp.1
    kept := fun _ => h.kept fun ⟨e, _, hp⟩ => none e hp }
  exact quiet.eq_of_not_stirring (by simp)

theorem not_passed_of_no_lead (h : s.ju.currentLead = none) (e : OpenJoint) : ¬ Passed s e := by
  rintro ⟨-, lead, -⟩
  rw [h] at lead
  cases lead

/-- The state in which the fetch after a WELD with CONTINUE that has ended at `p` begins. -/
def weldCloses (p : Nat) (l : PeerLine) (s : State) : State :=
  { s with
    tg := { withdrawn s.tg with v := 0, fence := some p }, ju := afterClose .complete s.ju
    px := { s.px with decided := some ⟨.complete, none⟩, firstRecord := false }, pli := l }

theorem weldCloses_keeps (p : Nat) (l : PeerLine) (s : State) : Keeps [.tg, .px, .ju, .pli] s (weldCloses p l s) :=
  fun x hx => by cases x <;> simp [Part.same, weldCloses] at hx ⊢

/-- R34, R84, R110: the computation that finds a WELD with CONTINUE at its end. -/
theorem travelEvent_of_continue {r : PassRecord} {m : MotionTarget} {w : WeldParams} {p : Nat} (ha : s.px.state = .active)
    (hr : s.px.record = some r) (hc : r.continues = true) (hm : s.tg.target = some m) (hend : m.endPos = p)
    (hp : s.tg.p = some p) (hlast : s.tg.lastEnd = some p) (ho : s.tg.phaseOpen = true) (hv : s.tg.v ≤ s.constants.decel)
    (hw : s.hs.weld = some w) (hwc : w.cont = true) :
    ∃ l, travelEvent s = beginFetch .continuation (s.px.index + 1) (weldCloses p l s) ∧ LineKeeps s.pli l := by
  have fence := fenceAt_of_lastEnd hlast
  have stands : newSpeed s.constants s.tg.v (targetSpeed s) (distance (fenceAt s p) p) = 0 := by
    rw [fence, distance_self, newSpeed_of_no_distance]
  have report : travelReport s p 0 = (.pathEnd, s.tg.stallCount, s.tg.stirCount) := by
    rw [travelReport_of_standing ho hm, if_pos hend.symm]
  obtain ⟨u, hu⟩ : ∃ u : State, u = { s with tg := { s.tg with v := 0, fence := some p, phaseOpen := false } } := ⟨_, rfl⟩
  have ended : standing s p = u := by simp [standing, report, fence, hu]
  have stirs : headPathEnd u = u := by simp [headPathEnd, hu, hw, hwc]
  obtain ⟨l, fetches, line⟩ := executorPathEnd_continues (s := u) (by rw [hu]; exact ha) (by rw [hu]; exact hr) hc
  rw [hu] at line
  refine ⟨l, ?_, line⟩
  rw [travelEvent_of_standing hp ho hv stands, report, ended]
  simp only [travelReported, stirs, ite_self]
  rw [fetches, hu]
  rfl

/-- R75: the successor's fetch begins. -/
theorem weldCloses_fetches {p i : Nat} {l : PeerLine} (line : LineKeeps s.pli l) (hi : i ≤ 511) :
    let t := beginFetch .continuation i (weldCloses p l s)
    LineKeeps s.pli t.pli ∧ t.tg = { withdrawn s.tg with v := 0, fence := some p } ∧ t.ju = afterClose .complete s.ju
      ∧ Keeps [.tg, .px, .ju, .su, .pli] s t ∧ Notified (readRecord s.pm i) i [] s t ∧ t.px = fetchBegun .continuation i s := by
  intro t
  obtain ⟨l', begun, line'⟩ := beginFetch_eq .continuation hi (weldCloses p l s)
  have begins : Keeps [.px, .su, .pli] (weldCloses p l s) t := by
    rw [show t = _ from begun]
    exact fun x hx => by cases x <;> simp [Part.same] at hx ⊢
  have kept := begins.via ((weldCloses_keeps p l s).mono (by rfl)) (by rfl) (l := [.tg, .px, .ju, .su, .pli])
  have notified : Notified (readRecord s.pm i) i [] s t := notified_of_su (by rw [show t = _ from begun]; rfl)
  rw [show t = _ from begun] at kept notified ⊢
  exact ⟨line.trans line', rfl, rfl, kept, notified, rfl⟩

/-- R76, R79: beyond record 511 the successor's fetch fails: the head goes RETRACTING and the end is awaited. -/
theorem weldCloses_fails {p i : Nat} {l : PeerLine} (line : LineKeeps s.pli l) (hi : 512 ≤ i) (hs : s.hs.state = .stirring) :
    let t := beginFetch .continuation i (weldCloses p l s)
    LineKeeps s.pli t.pli ∧ t.tg = { withdrawn s.tg with v := 0, fence := some p } ∧ t.ju = afterClose .complete s.ju
      ∧ Keeps [.tg, .px, .hs, .ju, .su, .pli] s t ∧ t.flag .programCheck = true ∧ FlagsKeep [.programCheck] s t
      ∧ t.hs = { s.hs with state := .retracting, phase := 0, spindle := 0, trim := 0 }
      ∧ t.px = { s.px with
          state := .awaitHeadEnd, role := .continuation, decided := some ⟨.programCheck, some .indexRange⟩
          record := none, passed := false, firstRecord := false } := by
  intro t
  obtain ⟨l', fails, line'⟩ := beginFetch_fails .continuation hi (weldCloses p l s)
  obtain ⟨u, hu⟩ : ∃ u : State, u = { weldCloses p l s with
    px := { (weldCloses p l s).px with state := .fetching, role := .continuation, decided := none, record := none }
    pli := l' } := ⟨_, rfl⟩
  rw [← hu] at fails
  have stirring : u.hs.state = .stirring := by rw [hu]; exact hs
  have standing : u.tg.v = 0 := by rw [hu]; rfl
  have continuation : u.px.role = .continuation := by rw [hu]
  have asked := programCheck_of_stirring .indexRange continuation stirring standing
  have flags := programCheck_flagsKeep (d := .indexRange) continuation stirring standing
  obtain ⟨left, head⟩ := asked.retracts stirring standing
  have joints := left.eq_of_none_passed (not_passed_of_no_lead (by rw [hu]; rfl))
  have before : Keeps [.tg, .px, .ju, .pli] s u := by
    rw [hu]
    exact (weldCloses_keeps p l s).trans fun x hx => by cases x <;> simp [Part.same] at hx ⊢
  have after : LineKeeps s.pli u.pli := by rw [hu]; exact line.trans line'
  rw [show t = _ from fails]
  refine ⟨after.trans asked.line, ?_, ?_, asked.kept.via (before.mono (by rfl)) (by rfl), by simp [asked.flags], ?_, ?_, ?_⟩
  · rw [asked.travel, hu]
    rfl
  · rw [joints, hu]
    rfl
  · have su : u.su = s.su := before .su (by decide)
    simpa only [FlagsKeep, State.flag, su] using flags
  · rw [head, hu]
    rfl
  · rw [asked.executor, hu]
    rfl

theorem FlagsKeep.mono {a b : List AttentionFlag} (h : FlagsKeep a s t) (sub : a ⊆ b) : FlagsKeep b s t :=
  ⟨fun f hf => h.1 f (fun ha => hf (sub ha)), h.2⟩

/-- Settles O59. -/
theorem chainGoesOn : Obligations.ChainGoesOn := by
  refine ⟨fun s r e i p hx hd hr hk hv hh hp hreset flags => ?_,
    fun s r m w p ha hr hk hc hm _ hend hp hlast ho hv hs hw hwc => ?_⟩
  · have hexec : exec .recordClose s = .next (settle (closeRecord s)) := by
      show Host.Outcome.next _ = _
      rw [executorCloses_of_waiting (.inl hx), closeIfRest_of_rest hv hh]
    have decided : ∃ l, s = { s with px := executorAwaits e s, pli := l } ∧ LineKeeps s.pli l := by
      refine ⟨s.pli, ?_, rfl⟩
      rw [executorAwaits, ← hx, ← hd]
    obtain ⟨kept, line, travel, joints, fetched⟩ :=
      closeRecord_nextFetched decided (by rw [hr]; exact nextFetch_of_weld hk flags) hp hreset
    exact ⟨_, hexec, (settle_keeps _).via kept (by rfl), line.trans (lineKeeps_settle _), by rw [settle_tg, travel],
      by rw [settle_ju, joints], fetched.settle⟩
  · obtain ⟨l, event, line⟩ :=
      travelEvent_of_continue ha hr (by simp [PassRecord.continues, hk, hc]) hm hend hp hlast ho hv hw hwc
    rw [travel_exec, event]
    by_cases hi : s.px.index + 1 ≤ 511
    · obtain ⟨line, travel, joints, kept, notified, executor⟩ := weldCloses_fetches (p := p) line hi
      refine ⟨_, rfl, line.trans (lineKeeps_settle _), by rw [settle_tg, travel], by rw [settle_ju, joints],
        fun _ => ⟨(settle_keeps _).via kept (by rfl), ?_, by rw [settle_px, executor]⟩, fun h => absurd h (by omega)⟩
      simpa only [Notified, settle_su, State.flag_settle] using notified.mono (List.nil_subset _)
    · obtain ⟨line, travel, joints, kept, failed, flags, head, executor⟩ :=
        weldCloses_fails (p := p) line (i := s.px.index + 1) (by omega) hs
      exact ⟨_, rfl, line.trans (lineKeeps_settle _), by rw [settle_tg, travel], by rw [settle_ju, joints],
        fun h => absurd h (by omega), fun _ => ⟨(settle_keeps _).via kept (by rfl), by rw [State.flag_settle, failed],
          flags.settle.mono (List.subset_cons_self _ _), by rw [settle_hs, head], by rw [settle_px, executor]⟩⟩

end Sys2Proof.Machine

namespace Sys2Proof.Machine

variable {s t u v : State} {d : Detail} {h : HeadSequencer}

/-! ### The head's faults at an expiry (R103, R104, R108, R115) -/

/-- The Z command after the ramp of a plunge (R104). -/
def plungeRamp (h : HeadSequencer) : Nat :=
  match h.state, h.weld with
  | .plunging, some w => if h.zCommand + w.plungeRate ≤ w.depth then h.zCommand + w.plungeRate else w.depth
  | _, _ => h.zCommand

theorem plungeRamp_of_plunging {w : WeldParams} (hs : h.state = .plunging) (hw : h.weld = some w) :
    plungeRamp h = if h.zCommand + w.plungeRate ≤ w.depth then h.zCommand + w.plungeRate else w.depth := by
  simp only [plungeRamp, hs, hw]

theorem plungeRamp_of_none (hw : h.state ≠ .plunging ∨ h.weld = none) : plungeRamp h = h.zCommand := by
  unfold plungeRamp
  split
  · next hs hx => simp [hs, hx] at hw
  · rfl

/-- The head after the counts of an expiry and the ramp of a plunge. -/
def headRamped (h : HeadSequencer) : HeadSequencer :=
  { h with phase := oneOn h.phase, forceAge := oneOn h.forceAge, zCommand := plungeRamp h }

/-- R103 to R108: the counts and the ramp of an expiry of a head at work that makes no force step. -/
theorem headRamps_eq (hw : s.hs.state.working = true) (hf : s.hs.state = .stirring → 32 ≤ oneOn s.hs.forceAge) :
    headRamps (headCounts s) = s.withHs (headRamped s.hs) := by
  have counted : (headCounts s).hs = { s.hs with phase := oneOn s.hs.phase, forceAge := oneOn s.hs.forceAge } := by
    simp [headCounts, countUp_eq_oneOn]
  have same (hn : s.hs.state ≠ .plunging ∨ s.hs.weld = none) : headCounts s = s.withHs (headRamped s.hs) := by
    refine (show headCounts s = s.withHs (headCounts s).hs from rfl).trans (congrArg s.withHs ?_)
    rw [counted, headRamped, plungeRamp_of_none hn]
  unfold headRamps
  rw [counted]
  cases hs : s.hs.state with
  | plunging =>
    cases hw' : s.hs.weld with
    | none => exact same (.inr hw')
    | some w => simp [headRamped, plungeRamp_of_plunging hs hw', headCounts, State.withHs, countUp_eq_oneOn, min_eq_ite]
  | stirring =>
    have late : ¬ oneOn s.hs.forceAge < Config.forceHoldAge := by
      have := hf hs
      simp only [Config.forceHoldAge]
      omega
    cases hw' : s.hs.weld with
    | none => exact same (.inl (by simp [hs]))
    | some w => exact (if_neg late).trans (same (.inl (by simp [hs])))
  | spinningUp => exact same (.inl (by simp [hs]))
  | dwelling => exact same (.inl (by simp [hs]))
  | _ => rw [hs] at hw; cases hw

/-- What a fault that the head finds itself under an ACTIVE record leaves (R86, R115, R126). -/
structure HeadFaulted (d : Detail) (s t : State) : Prop where
  kept : Keeps [.tg, .px, .hs, .ju, .su, .pli] s t
  flag : t.flag .fault = true
  flags : FlagsKeep [.fault] s t
  line : LineKeeps s.pli t.pli
  travel : t.tg = withdrawn s.tg
  executor : t.px = executorAwaits ⟨.fault, some d⟩ s
  joints : LeftStirring s t.ju
  head : t.hs = faultHead s.hs

theorem headFault_faulted (d : Detail) (hx : s.px.state = .active) (hw : s.hs.state.working = true) :
    HeadFaulted d s (headFault d s) := by
  obtain ⟨ready, raised, calm⟩ := faultRetract_ready hw
  have moving : (raise .fault (faultRetract s)).hs.state ≠ .parked := by simp [ready.head, faultHead]
  have slows := stoppingCause_slows (e := ⟨.fault, some d⟩) (d := d) (s := raise .fault (faultRetract s))
    (.inl (by rw [ready.executor]; exact hx)) (.inr moving)
  obtain ⟨travel, free, flags, joints, head, executor⟩ := ready.awaits slows
  have total := calm.trans (slows.calm.mono (by simp))
  have kept : Keeps [.freeCount, .tg, .px, .hs, .ju, .su, .pli] s (headFault d s) := total.kept.mono (by rfl)
  refine ⟨kept.drop free, (slows.calm.flags .fault (by simp)).trans raised, flags, total.line, travel, ?_, joints, head⟩
  exact executor.trans (by rw [executorAwaits, executorAwaits, ready.executor])

theorem HeadFaulted.settle (h : HeadFaulted d s t) : HeadFaulted d s (settle t) :=
  ⟨(settle_keeps t).via h.kept (by rfl), by rw [State.flag_settle, h.flag], h.flags.settle, h.line.trans (lineKeeps_settle t),
    by rw [settle_tg, h.travel], by rw [settle_px, h.executor], by rw [settle_ju]; exact h.joints, by rw [settle_hs, h.head]⟩

/-- R103 to R105, R108, R113, R114: a head that has just begun its fault retract finds nothing more at the same expiry. -/
theorem HeadFaulted.quiet (h : HeadFaulted d s t) :
    forceCheck t = t ∧ startPendingRetract t = t ∧ (0 < s.constants.retractTimeout → phaseCheck t = t) := by
  have constants : t.constants = s.constants := h.kept .constants (by simp)
  refine ⟨?_, ?_, fun timeout => ?_⟩
  · simp [forceCheck, forceLostFound, h.head, faultHead, HeadState.pressing]
  · simp [startPendingRetract, pendingRetractDue, h.head, faultHead]
  · have early : ¬ t.constants.retractTimeout ≤ 0 := by
      rw [constants]
      omega
    simp [phaseCheck, phaseTimeout, retractTimedOut, endDwell, dwellDone, h.head, faultHead, early]

/-- R103, R104: the expiry at which a phase times out, its timeout looked at first (log 13). -/
theorem headExpiry_of_timeout (hx : s.px.state = .active) (hs : s.hs.state = .spinningUp ∨ s.hs.state = .plunging)
    (ht : phaseTimeout (headCounts s) = some d) :
    HeadFaulted d (s.withHs (headRamped s.hs)) (settle (headExpiry true s)) := by
  have working : s.hs.state.working = true := by rcases hs with hs | hs <;> rw [hs] <;> rfl
  have ramped := headRamps_eq (s := s) working (fun h => by rcases hs with hs | hs <;> rw [h] at hs <;> cases hs)
  have faulted : HeadFaulted d (s.withHs (headRamped s.hs)) (headFault d (s.withHs (headRamped s.hs))) :=
    headFault_faulted d hx working
  have same : phaseTimeout (s.withHs (headRamped s.hs)) = phaseTimeout (headCounts s) := by
    rcases hs with hs | hs <;> simp [phaseTimeout, headCounts, headRamped, countUp_eq_oneOn, hs]
  have finds : headExpiry true s = headFault d (s.withHs (headRamped s.hs)) := by
    simp only [headExpiry, ramped, if_true, phaseCheck, same, ht, faulted.quiet.1, faulted.quiet.2.1]
  rw [finds]
  exact faulted.settle

/-- R108: the expiry at which the force is found lost. -/
theorem headExpiry_of_lost (hx : s.px.state = .active) (hf : forceLostFound (headCounts s) = true)
    (timeout : 0 < s.constants.retractTimeout) :
    HeadFaulted .forceLost (s.withHs (headRamped s.hs)) (settle (headExpiry false s)) := by
  obtain ⟨pressing, late⟩ : s.hs.state.pressing = true ∧ 32 ≤ oneOn s.hs.forceAge := by
    simpa [forceLostFound, headCounts, countUp_eq_oneOn, Config.forceLostAge] using hf
  have working : s.hs.state.working = true := by
    revert pressing
    cases s.hs.state <;> simp [HeadState.pressing, HeadState.working]
  have ramped := headRamps_eq (s := s) working (fun _ => late)
  have faulted : HeadFaulted .forceLost (s.withHs (headRamped s.hs)) (headFault .forceLost (s.withHs (headRamped s.hs))) :=
    headFault_faulted .forceLost hx working
  have lost : forceLostFound (s.withHs (headRamped s.hs)) = true := by
    simp [forceLostFound, headRamped, pressing, late, Config.forceLostAge]
  have finds : headExpiry false s = headFault .forceLost (s.withHs (headRamped s.hs)) := by
    simp only [headExpiry, ramped, Bool.false_eq_true, if_false, forceCheck, lost, if_true, faulted.quiet.2.2 timeout,
      faulted.quiet.2.1]
  rw [finds]
  exact faulted.settle

/-- The head's fault as seen from before the counts and the ramp. -/
theorem HeadFaulted.from_ramped (f : HeadFaulted d (s.withHs (headRamped s.hs)) t) :
    Keeps [.tg, .px, .hs, .ju, .su, .pli] s t ∧ t.flag .fault = true ∧ FlagsKeep [.fault] s t ∧ LineKeeps s.pli t.pli
      ∧ t.tg = withdrawn s.tg ∧ t.px = executorAwaits ⟨.fault, some d⟩ s ∧ LeftStirring s t.ju
      ∧ t.hs = faultHead (headRamped s.hs) :=
  ⟨f.kept.via ((withHs_keeps s _).mono (by rfl)) (by rfl), f.flag, f.flags, f.line, f.travel, f.executor,
    f.joints.congr rfl rfl rfl rfl, f.head⟩

/-- With the head out of STIRRING the joints stay as they are. -/
theorem HeadFaulted.keeps_joints (f : HeadFaulted d (s.withHs (headRamped s.hs)) t) (hs : s.hs.state ≠ .stirring) :
    Keeps [.tg, .px, .hs, .su, .pli] s t := by
  obtain ⟨kept, -, -, -, -, -, joints, -⟩ := f.from_ramped
  exact (kept.mono (m := [.ju, .tg, .px, .hs, .su, .pli]) (by rfl)).drop (joints.eq_of_not_stirring hs)

theorem faultHead_headRamped (h : HeadSequencer) :
    faultHead (headRamped h) = faultHead { h with forceAge := oneOn h.forceAge, zCommand := plungeRamp h } := rfl

theorem phaseTimeout_spin_iff (s : State) : phaseTimeout (headCounts s) = some .spinTimeout
    ↔ s.hs.state = .spinningUp ∧ s.constants.spinUpTimeout ≤ oneOn s.hs.phase := by
  cases hs : s.hs.state <;> simp [phaseTimeout, headCounts, hs, countUp_eq_oneOn]

theorem phaseTimeout_plunge_iff (s : State) : phaseTimeout (headCounts s) = some .plungeTimeout
    ↔ s.hs.state = .plunging ∧ s.constants.plungeTimeout ≤ oneOn s.hs.phase := by
  cases hs : s.hs.state <;> simp [phaseTimeout, headCounts, hs, countUp_eq_oneOn]

theorem forceLost_iff (s : State) : forceLostFound (headCounts s) = true
    ↔ (s.hs.state = .plunging ∨ s.hs.state = .dwelling ∨ s.hs.state = .stirring) ∧ 32 ≤ oneOn s.hs.forceAge := by
  cases hs : s.hs.state <;> simp [forceLostFound, headCounts, hs, countUp_eq_oneOn, HeadState.pressing, Config.forceLostAge]

/-- Settles O35. -/
theorem headFaultsRetract : Obligations.HeadFaultsRetract := by
  intro s
  refine ⟨fun hx => ⟨fun hs ht => ?_, fun w hs hw ht => ?_⟩, fun h => ?_, fun h => ?_, fun hs hf hx timeout => ?_, fun h => ?_⟩
  · have finds := (phaseTimeout_spin_iff s).mpr ⟨hs, ht⟩
    have faulted := headExpiry_of_timeout hx (.inl hs) finds
    obtain ⟨-, flag, flags, line, travel, executor, -, head⟩ := faulted.from_ramped
    refine ⟨_, congrArg Host.Outcome.next (if_pos finds), faulted.keeps_joints (by simp [hs]), flag, flags, line, travel,
      executor, ?_⟩
    rw [head, faultHead_headRamped, plungeRamp_of_none (.inl (by simp [hs]))]
  · have finds := (phaseTimeout_plunge_iff s).mpr ⟨hs, ht⟩
    have faulted := headExpiry_of_timeout hx (.inr hs) finds
    obtain ⟨-, flag, flags, line, travel, executor, -, head⟩ := faulted.from_ramped
    refine ⟨_, congrArg Host.Outcome.next (if_pos finds), faulted.keeps_joints (by simp [hs]), flag, flags, line, travel,
      executor, ?_⟩
    rw [head, faultHead_headRamped, plungeRamp_of_plunging hs hw]
  · refine congrArg Host.Outcome.next (if_neg ?_)
    rw [phaseTimeout_spin_iff]
    exact fun hc => h.elim (· hc.1) (Nat.not_lt.mpr hc.2)
  · refine congrArg Host.Outcome.next (if_neg ?_)
    rw [phaseTimeout_plunge_iff]
    exact fun hc => h.elim (· hc.1) (Nat.not_lt.mpr hc.2)
  · have finds := (forceLost_iff s).mpr ⟨hs, hf⟩
    obtain ⟨kept, flag, flags, line, travel, executor, joints, head⟩ := (headExpiry_of_lost hx finds timeout).from_ramped
    refine ⟨_, congrArg Host.Outcome.next (if_pos finds), kept, flag, flags, line, travel, executor, joints, fun hn => ?_,
      fun w hp hw => ?_⟩
    · rw [head, faultHead_headRamped, plungeRamp_of_none (.inl hn)]
    · rw [head, faultHead_headRamped, plungeRamp_of_plunging hp hw]
  · refine congrArg Host.Outcome.next (if_neg ?_)
    rw [forceLost_iff]
    rintro ⟨hs, hf⟩
    rcases h with h | ⟨h1, h2, h3⟩
    · omega
    · rcases hs with hs | hs | hs
      · exact h1 hs
      · exact h2 hs
      · exact h3 hs

end Sys2Proof.Machine

namespace Sys2Proof.Machine

variable {s t u v : State} {m : Feedback}

/-! ### The retract completes (R112, R120, R166) -/

/-- The state in which a message has completed the retract, before the executor hears of it (R112). -/
def retracted (m : Feedback) (l : PeerLine) (s : State) : State :=
  { s with
    dp := feedbackHeld m s.dp
    hs := { forceTaken m s.hs with state := .parked, phase := 0, weld := none, retractPending := false }, pli := l }

theorem retracted_keeps (m : Feedback) (l : PeerLine) (s : State) : Keeps [.hs, .dp, .pli] s (retracted m l s) :=
  fun x hx => by cases x <;> simp [Part.same, retracted] at hx ⊢

/-- A message with Z-clear, taken in RETRACTING with the Z command at 0, the enable on and p known. -/
structure EndsRetract (m : Feedback) (s : State) : Prop where
  slot : s.dp.slot = some m
  enable : s.dp.enable = true
  place : s.tg.p ≠ none
  retracting : s.hs.state = .retracting
  depth : s.hs.zCommand = 0
  clear : m.zClear = true

/-- R112: the message parks the head. -/
theorem EndsRetract.completes (h : EndsRetract m s) :
    ∃ l, feedbackCompletes m s (handOn m s) = headEnd (retracted m l s) ∧ LineKeeps s.pli l := by
  obtain ⟨state, -, depth⟩ := forceTaken_keeps m s.hs
  have held := handOn_of_enabled (m := m) h.enable h.place
  obtain ⟨l, parks, line⟩ := enterParked_eq (handOn m s)
  rw [held] at parks line
  refine ⟨l, ?_, line⟩
  have spin : spinUpEnds m (handOn m s) = false := by simp [spinUpEnds, held, state, h.retracting]
  have ends : retractEnds m (handOn m s) = true := by
    simp [retractEnds, held, state, depth, h.retracting, h.depth, h.clear]
  have found : ¬ (handOn m s).hs.state ≠ s.hs.state := by simp [held, state]
  unfold feedbackCompletes
  rw [if_neg found, spin, if_neg Bool.false_ne_true, if_pos ends, held, parks]
  rfl

/-- R109: in RETRACTING no force is compared. -/
theorem EndsRetract.forceAccepted (h : EndsRetract m s) : ForceAccepted m s := by
  rintro (hs | hs | hs) <;> rw [h.retracting] at hs <;> cases hs

theorem feedbackFaults_of_faultFree (h : FaultFree m s) (t : State) : feedbackFaults m s t = t := by
  obtain ⟨code, place, follows, force⟩ := h
  exact feedbackFaults_of_accepted (.inr fun _ => ⟨code, place⟩)
    (followingLost_of_accepted fun _ _ p hp => follows p hp) force t

/-- RETRACT_COMPLETE reports the message's faults after its completion (log 12); with no fault FEEDBACK_TAKEN is the same. -/
theorem EndsRetract.exec (h : EndsRetract m s) (hp : s.su.lineResetPending = false) :
    ∃ l, exec .retractComplete s = .next (settle (feedbackFaults m s (headEnd (retracted m l s))))
      ∧ (FaultFree m s → exec .feedbackTaken s = .next (settle (headEnd (retracted m l s)))) ∧ LineKeeps s.pli l := by
  obtain ⟨l, completes, line⟩ := h.completes
  have due : slotHas (fun m => retractEnds m (followZ m s)) s = true := by
    have follows : followZ m s = s := if_pos h.enable
    simp [slotHas, h.slot, follows, retractEnds, h.retracting, h.depth, h.clear]
  have taken : takeFeedback true s = feedbackFaults m s (feedbackCompletes m s (handOn m s)) := by
    simp [takeFeedback, h.slot, completesFirst, hp]
  refine ⟨l, ?_, fun free => ?_, line⟩
  · show Host.Outcome.next (if slotHas _ s then settle (takeFeedback true s) else s) = _
    rw [if_pos due, taken, completes]
  · show Host.Outcome.next (settle (takeFeedback false s)) = _
    rw [takeFeedback_of_slot h.slot, feedbackFaults_of_faultFree free, completes]

/-! ### What a close of a record leaves alone (R75, R79, R89) -/

theorem closeJoints_calm (k : EndKind) (s : State) : Calm [.jointVoided] s (closeJoints k s) := by
  obtain ⟨l, he, hl⟩ := closeJoints_eq k s
  refine ⟨(closeJoints_keeps k s).mono (by rfl), fun f hf => ?_, by rw [he], by rw [he]; exact hl⟩
  rw [he]
  refine (flag_raisedIf _ _ _ _).trans ?_
  rw [decide_eq_false (by simpa using hf), Bool.and_false, Bool.or_false]
  rfl

theorem withdrawTarget_calm (s : State) : Calm [] s (withdrawTarget s) :=
  Calm.of_su (withdrawTarget_keeps s) (by rfl) rfl rfl

theorem takeIndex_calm (i : Nat) (s : State) : Calm [.notify] s (takeIndex i s) :=
  (((setIndex_calm i s).trans (withPx_calm _ _)).mono (List.nil_subset _)).trans (notifyFetch_calm _ _)

theorem beginFetch_calm (role : Role) (i : Nat) (h : s.su.lineResetPending = false) :
    Calm fetchFlags s (beginFetch role i s) := by
  unfold beginFetch
  extract_lets x u
  have begun : Calm fetchFlags s u := ((withPx_calm _ s).trans (setExecutor_calm _ _)).mono (List.nil_subset _)
  split
  · have emptied := begun.trans ((withPx_calm { u.px with record := none } u).mono (List.nil_subset _))
    exact emptied.trans ((programCheck_calm _ (emptied.noReset h)).mono (by simp [fetchFlags]))
  · exact begun.trans ((takeIndex_calm i u).mono (by simp [fetchFlags]))

/-- R89: a record's close up to the next fetch. -/
theorem recordClosed_calm (k : EndKind) (x : PassExecutor) (s : State) :
    Calm [.jointVoided] s ((withdrawTarget (closeJoints k s)).withPx x) :=
  (closeJoints_calm k s).trans (((withdrawTarget_calm _).trans (withPx_calm x _)).mono (List.nil_subset _))

theorem closeRecord_calm (h : s.su.lineResetPending = false) : Calm fetchFlags s (closeRecord s) := by
  unfold closeRecord
  split
  · exact (Calm.refl s).mono (List.nil_subset _)
  · next e _ =>
    split
    · exact (closeStopping_calm e h).mono (by simp [fetchFlags])
    · next role i _ =>
      have closed := recordClosed_calm e.kind { s.px with firstRecord := false } s
      exact (closed.mono (by simp [fetchFlags])).trans (beginFetch_calm role i (closed.noReset h))

theorem closeIfRest_calm (h : s.su.lineResetPending = false) : Calm fetchFlags s (closeIfRest s) := by
  unfold closeIfRest
  split
  · exact closeRecord_calm h
  · exact (Calm.refl s).mono (List.nil_subset _)

theorem closeStopping_hs (e : Decision) (h : s.su.lineResetPending = false) : (closeStopping e s).hs = s.hs := by
  obtain ⟨l, he, -⟩ := closeStopping_eq e s h
  rw [he]

/-- R114: a fetch that fails asks nothing of a PARKED head. -/
theorem programCheck_hs (d : Detail) (h : s.su.lineResetPending = false) (hh : s.hs.state = .parked) :
    (programCheck d s).hs = s.hs := by
  unfold programCheck
  extract_lets e x u v w
  have raised : u.hs = s.hs := raise_keeps .programCheck _ .hs (by decide)
  have noReset : u.su.lineResetPending = false := (raise_calm .programCheck (s.withPx _)).noReset h
  split
  · exact (closeStopping_hs e noReset).trans raised
  · have asks : Keeps [.tg, .px, .pli] u v :=
      (setExecutor_keeps _ _).via ((decideEnd_keeps e _).via ((withdrawTarget_keeps u).mono (by rfl)) (by rfl)) (by rfl)
    have head : v.hs = s.hs := (asks .hs (by decide)).trans raised
    have same : w = v := normalRetract_of_parked (by rw [head]; exact hh)
    rw [same]
    split
    · refine (closeStopping_hs e ?_).trans head
      rw [show v.su = u.su from asks .su (by decide)]
      exact noReset
    · exact head

theorem beginFetch_hs (role : Role) (i : Nat) (h : s.su.lineResetPending = false) (hh : s.hs.state = .parked) :
    (beginFetch role i s).hs = s.hs := by
  unfold beginFetch
  extract_lets x u
  have begun : Keeps [.px, .pli] s u := (setExecutor_keeps _ _).via ((withPx_keeps s _).mono (by rfl)) (by rfl)
  have head : u.hs = s.hs := begun .hs (by decide)
  split
  · refine (programCheck_hs .indexRange ?_ (by exact head ▸ hh)).trans head
    rw [State.withPx_su, show u.su = s.su from begun .su (by decide)]
    exact h
  · exact (takeIndex_keeps i u .hs (by decide)).trans head

/-- R89: a record's close leaves a PARKED head as it is. -/
theorem closeRecord_hs (h : s.su.lineResetPending = false) (hh : s.hs.state = .parked) : (closeRecord s).hs = s.hs := by
  unfold closeRecord
  split
  · rfl
  · next e _ =>
    split
    · exact closeStopping_hs e h
    · next role i _ =>
      have closed := recordClosed_calm e.kind { s.px with firstRecord := false } s
      have head : ((withdrawTarget (closeJoints e.kind s)).withPx { s.px with firstRecord := false }).hs = s.hs :=
        closeJoints_keeps e.kind s .hs (by decide)
      exact (beginFetch_hs role i (closed.noReset h) (by rw [head, hh])).trans head

/-- R112, R120, R166: the head's end, with no LINE RESET pending, leaves the head and the Drive Port as they are. -/
theorem headEnd_leaves (h : s.su.lineResetPending = false) (hh : s.hs.state = .parked) :
    (headEnd s).hs = s.hs ∧ (headEnd s).dp = s.dp ∧ LineKeeps s.pli (headEnd s).pli := by
  unfold headEnd
  split
  · have calm := closeIfRest_calm h
    refine ⟨?_, calm.kept .dp (by simp [stopParts]), calm.line⟩
    unfold closeIfRest
    split
    · exact closeRecord_hs h hh
    · rfl
  · rw [h, Bool.false_and, if_neg Bool.false_ne_true]
    split
    · obtain ⟨l, idle, line⟩ := idle_eq s
      rw [idle]
      exact ⟨rfl, rfl, line⟩
    · exact ⟨rfl, rfl, rfl⟩

/-! ### What the head's end ends (R89, R120, R166) -/

/-- R89: a WELD without flags that waits for the head closes with its decided end. -/
theorem headEnd_closes {e : Decision} {r : PassRecord} {p : Nat} {l : PeerLine} (hv : s.tg.v = 0) (hp : s.tg.p = some p)
    (hreset : s.su.lineResetPending = false) (hx : s.px.state = .awaitHeadEnd ∨ s.px.state = .halting)
    (hd : s.px.decided = some e) (hr : s.px.record = some r) (hpass : s.px.passed = true) (hk : r.kind = some .weld)
    (hc : r.chain = false) (hn : r.cont = false) :
    Ended e p (distance r.endPos p) (retracted m l s) (headEnd (retracted m l s)) := by
  have waits : waitingForRest (retracted m l s) = true := by
    rcases hx with hx | hx <;> simp [waitingForRest, retracted, hx]
  have remaining : remainingDistance (retracted m l s) = distance r.endPos p :=
    remainingDistance_of_weld (s := retracted m l s) hr hk hpass hp
  have next : nextFetch e.kind s.px.record s.px.index = none := by
    rw [hr]
    exact nextFetch_eq_none _ (fun _ => ⟨hc, hn⟩) (fun _ => .inr ⟨hc, hn⟩) (fun _ => ⟨hc, hn⟩)
  rw [headEnd, if_pos waits, ← remaining]
  exact closeIfRest_ended (s := retracted m l s) hd hv rfl next hp hreset

/-- R120, R166: with no chain a station STOPPED becomes IDLE, and one IDLE keeps its state. -/
theorem headEnd_of_resting (hreset : s.su.lineResetPending = false) (hx : s.px.state = .idle ∨ s.px.state = .stopped) :
    headEnd s = if s.px.state = .stopped then setStation .idle (setExecutor .idle s) else s := by
  have resting : waitingForRest s = false := by rcases hx with hx | hx <;> simp [waitingForRest, hx]
  rw [headEnd, resting, hreset]
  rfl

/-- R177: the drive fault of a message that found the station RUNNING, reported where the chain has ended before. -/
theorem feedbackFaults_after_end (hr : s.su.station = .running) (hf : FollowAccepted m s) (ho : ForceAccepted m s)
    (hd : ¬ DriveAccepted m s) (ht : t.dp.driveReported = false) (hx : t.px.state = .idle ∨ t.px.state = .stopped) :
    feedbackFaults m s t = raise .fault (t.withDp { t.dp with driveReported := true }) := by
  obtain ⟨unreported, fault⟩ : s.dp.driveReported = false ∧ ¬ (m.faultCode = 0 ∧ m.position ≤ Config.railTop) := by
    simpa [DriveAccepted] using hd
  obtain ⟨u, hu⟩ : ∃ u, u = raise .fault (t.withDp { t.dp with driveReported := true }) := ⟨_, rfl⟩
  have px : u.px = t.px := by rw [hu]; exact raise_keeps .fault (t.withDp _) .px (by decide)
  have dp : u.dp = { t.dp with driveReported := true } := by rw [hu]; exact raise_keeps .fault (t.withDp _) .dp (by decide)
  have reports : driveFault s t = u := by
    rw [driveFault_of_first hr unreported ht, faultCause, ← hu]
    rcases hx with hx | hx <;> simp only [stoppingCause, px, hx]
  have once : driveFault s u = u := if_neg fun h => by
    have := h.2.2
    rw [dp] at this
    cases this
  rw [feedbackFaults, overloadFault_of_accepted ho, ← hu]
  by_cases hpos : Config.railTop < m.position
  · rw [positionFault, if_pos hpos, reports, codeFault, once, ite_self]
  · have inRange := Nat.le_of_not_lt hpos
    have code : m.faultCode ≠ 0 := fun hc => fault ⟨hc, inRange⟩
    rw [positionFault, if_neg hpos, followingLost_of_accepted hf inRange, if_neg Bool.false_ne_true, codeFault, if_neg code,
      reports]

/-- The end of a chain that waited for the retract, as seen from before the message. -/
theorem Ended.of_retracted {e : Decision} {p d : Nat} {l : PeerLine} (h : Ended e p d (retracted m l s) t) :
    Keeps [.tg, .px, .hs, .ju, .dp, .su, .pli] s t ∧ t.tg = withdrawn s.tg ∧ t.ju = afterClose e.kind s.ju
      ∧ (e.kind = .complete → t.su = { s.su with station := .idle } ∧ t.px = executorAfter .idle e s.px.secondary p d s)
      ∧ (e.kind ≠ .complete → e.kind ≠ .short → e.kind ≠ .voidAlt →
          t.su.station = .stopped ∧ t.px = executorAfter .stopped e s.px.secondary p d s) := by
  refine ⟨(retracted_keeps m l s).then h.kept (by rfl) (by rfl), h.travel, h.joints, fun hk => ?_, fun h1 h2 h3 => ?_⟩
  · rw [h.status, h.executor, hk]
    simp only [bne_self_eq_false, Bool.and_false, Bool.false_eq_true, if_false]
    exact ⟨rfl, rfl⟩
  · have stops : e.kind.normal = false := Bool.eq_false_iff.mpr (mt (normal_iff e).mp (by simp [NormalEnd, h1, h2, h3]))
    rw [h.status, h.executor, stops]
    exact ⟨rfl, rfl⟩

theorem Ended.resting {e : Decision} {p d : Nat} (h : Ended e p d s t) : t.px.state = .idle ∨ t.px.state = .stopped := by
  rw [h.executor]
  cases e.kind.normal
  · exact .inr rfl
  · exact .inl rfl

/-- R120: after a retract from HALTED a station STOPPED becomes IDLE. -/
theorem headEnd_of_stopped (hreset : s.su.lineResetPending = false) (hx : s.px.state = .stopped) :
    ∃ l, headEnd s = { s with px := { s.px with state := .idle }, su := { s.su with station := .idle }, pli := l } := by
  obtain ⟨l, idle, -⟩ := idle_eq s
  exact ⟨l, (headEnd_of_resting hreset (.inr hx)).trans ((if_pos hx).trans idle)⟩

/-- R166: with no chain and no station STOPPED the head's end changes nothing. -/
theorem headEnd_of_idle (hreset : s.su.lineResetPending = false) (hx : s.px.state = .idle) : headEnd s = s :=
  (headEnd_of_resting hreset (.inl hx)).trans (if_neg (by simp [hx]))

/-- Settles O40. -/
theorem headEndCloses : Obligations.HeadEndCloses := by
  refine ⟨fun s m p hm he hp free hs hz hc hv hreset => ?_,
    fun s m p e r hm he hp follows fault running hs hz hc hv hreset hx hd hr hpass hk hchain hcont => ?_⟩
  · have ends : EndsRetract m s := ⟨hm, he, by simp [hp], hs, hz, hc⟩
    obtain ⟨l, completes, taken, line⟩ := ends.exec hreset
    rw [feedbackFaults_of_faultFree free] at completes
    obtain ⟨head, port, line'⟩ := headEnd_leaves (s := retracted m l s) hreset rfl
    refine ⟨_, completes, taken free, (line.trans line').trans (lineKeeps_settle _), by rw [settle_dp, port]; rfl,
      by rw [settle_hs, head]; rfl, fun e r hx hd hr hpass hk hchain hcont => ?_, fun hx => ?_, fun hx => ?_⟩
    · exact (headEnd_closes hv hp hreset hx hd hr hpass hk hchain hcont).settle.of_retracted
    · obtain ⟨l', idle⟩ := headEnd_of_stopped (s := retracted m l s) hreset hx
      rw [idle, settle_px, settle_su]
      refine ⟨(settle_keeps _).via ?_ (by rfl), rfl, rfl⟩
      exact ((retracted_keeps m l s).mono (by rfl)).trans fun x hx => by cases x <;> simp [Part.same] at hx ⊢
    · rw [headEnd_of_idle (s := retracted m l s) hreset hx]
      exact (settle_keeps _).via (retracted_keeps m l s) (by rfl)
  · have ends : EndsRetract m s := ⟨hm, he, by simp [hp], hs, hz, hc⟩
    obtain ⟨l, completes, -, line⟩ := ends.exec hreset
    obtain ⟨head, port, line'⟩ := headEnd_leaves (s := retracted m l s) hreset rfl
    have ended := headEnd_closes (m := m) (l := l) hv hp hreset hx hd hr hpass hk hchain hcont
    obtain ⟨kept, travel, joints, complete, stopping⟩ := ended.of_retracted
    obtain ⟨v, hv'⟩ : ∃ v, v = headEnd (retracted m l s) := ⟨_, rfl⟩
    rw [← hv'] at completes head port line' ended kept travel joints complete stopping
    have unreported : v.dp.driveReported = false := by
      rw [port]
      by_contra hc
      exact fault fun h => absurd h (by simpa [retracted, feedbackHeld] using hc)
    rw [feedbackFaults_after_end running follows ends.forceAccepted fault unreported ended.resting] at completes
    obtain ⟨l', raised, line''⟩ := raise_eq .fault (v.withDp { v.dp with driveReported := true })
    refine ⟨_, completes, ?_, ?_, ?_, ?_, ?_, ?_, ?_, fun hk => ?_, fun h1 h2 h3 => ?_⟩
    · have reported : LineKeeps v.pli (raise .fault (v.withDp { v.dp with driveReported := true })).pli := by
        rw [raised]
        exact line''
      exact ((line.trans line').trans reported).trans (lineKeeps_settle _)
    · refine (settle_keeps _).via ((raise_keeps .fault _).via ?_ (by rfl)) (by rfl)
      exact (withDp_keeps v _).via kept (by rfl)
    · rw [settle_tg, raised]
      exact travel
    · rw [settle_ju, raised]
      exact joints
    · rw [settle_dp, raised, State.withDp_dp, port]
      rfl
    · simp [State.flag_raise]
    · rw [settle_hs, raised]
      exact head
    · rw [settle_su, settle_px, raised]
      exact ⟨congrArg StatusUnit.station (complete hk).1, (complete hk).2⟩
    · rw [settle_su, settle_px, raised]
      exact stopping h1 h2 h3

end Sys2Proof.Machine

namespace Sys2Proof.Machine

variable {s t u : State} {c : BitVec 32 → BitVec 32} {a n : Nat → Nat}

/-! ### The counts of an interval expiry beside the chain (log 3)

The interval count, the feedback age and the beacon period count are what an expiry advances in every case. No operation of the
chain reads one or writes one, so the three blocks' work gives the same state in any order. -/

/-- The interval count, the feedback age and the beacon period count changed, each by a function of its own value. -/
def State.retimed (c : BitVec 32 → BitVec 32) (a n : Nat → Nat) (s : State) : State :=
  { s with clock := c s.clock, dp := { s.dp with age := a s.dp.age }
           pli := { s.pli with periodCount := n s.pli.periodCount } }

@[simp] theorem retimed_tg (s : State) : (s.retimed c a n).tg = s.tg := rfl
@[simp] theorem retimed_px (s : State) : (s.retimed c a n).px = s.px := rfl
@[simp] theorem retimed_hs (s : State) : (s.retimed c a n).hs = s.hs := rfl
@[simp] theorem retimed_ju (s : State) : (s.retimed c a n).ju = s.ju := rfl
@[simp] theorem retimed_su (s : State) : (s.retimed c a n).su = s.su := rfl
@[simp] theorem retimed_pm (s : State) : (s.retimed c a n).pm = s.pm := rfl
@[simp] theorem retimed_estop (s : State) : (s.retimed c a n).dp.estop = s.dp.estop := rfl
@[simp] theorem retimed_clamp (s : State) : (s.retimed c a n).dp.clamp = s.dp.clamp := rfl
@[simp] theorem retimed_changeNoted (s : State) : (s.retimed c a n).pli.changeNoted = s.pli.changeNoted := rfl

/-! #### Updates and setters -/

@[simp] theorem withPx_retimed (x : PassExecutor) (s : State) :
    (s.retimed c a n).withPx x = (s.withPx x).retimed c a n := rfl
@[simp] theorem withSu_retimed (x : StatusUnit) (s : State) :
    (s.retimed c a n).withSu x = (s.withSu x).retimed c a n := rfl
@[simp] theorem withFree_retimed (x : Nat) (s : State) :
    (s.retimed c a n).withFree x = (s.withFree x).retimed c a n := rfl
@[simp] theorem decideEnd_retimed (e : Decision) (s : State) :
    decideEnd e (s.retimed c a n) = (decideEnd e s).retimed c a n := rfl
@[simp] theorem withdrawTarget_retimed (s : State) :
    withdrawTarget (s.retimed c a n) = (withdrawTarget s).retimed c a n := rfl
@[simp] theorem giveTarget_retimed (m : MotionTarget) (d : Direction) (b : Bool) (s : State) :
    giveTarget m d b (s.retimed c a n) = (giveTarget m d b s).retimed c a n := rfl
@[simp] theorem startPause_retimed (r : PassRecord) (s : State) :
    startPause r (s.retimed c a n) = (startPause r s).retimed c a n := rfl

@[simp] theorem raise_retimed (f : AttentionFlag) (s : State) : raise f (s.retimed c a n) = (raise f s).retimed c a n := by
  simp only [raise, apply_ite (State.retimed c a n)]
  rfl

@[simp] theorem setExecutor_retimed (x : ExecutorState) (s : State) :
    setExecutor x (s.retimed c a n) = (setExecutor x s).retimed c a n := by
  simp only [setExecutor, apply_ite (State.retimed c a n)]
  rfl

@[simp] theorem setStation_retimed (x : StationState) (s : State) :
    setStation x (s.retimed c a n) = (setStation x s).retimed c a n := by
  simp only [setStation, apply_ite (State.retimed c a n)]
  rfl

@[simp] theorem setHead_retimed (x : HeadState) (s : State) : setHead x (s.retimed c a n) = (setHead x s).retimed c a n := by
  simp only [setHead, apply_ite (State.retimed c a n)]
  rfl

@[simp] theorem setIndex_retimed (i : Nat) (s : State) : setIndex i (s.retimed c a n) = (setIndex i s).retimed c a n := by
  simp only [setIndex, apply_ite (State.retimed c a n)]
  rfl

@[simp] theorem setCompletionPending_retimed (b : Bool) (s : State) :
    setCompletionPending b (s.retimed c a n) = (setCompletionPending b s).retimed c a n := by
  simp only [setCompletionPending, apply_ite (State.retimed c a n)]
  rfl

@[simp] theorem setJoints_retimed (x : JointUnit) (s : State) :
    setJoints x (s.retimed c a n) = (setJoints x s).retimed c a n := by
  simp only [setJoints, apply_ite (State.retimed c a n)]
  rfl

@[simp] theorem closeJoints_retimed (k : EndKind) (s : State) :
    closeJoints k (s.retimed c a n) = (closeJoints k s).retimed c a n := by
  simp only [closeJoints, raiseIf, apply_ite (State.retimed c a n), retimed_ju, setJoints_retimed, raise_retimed]

/-! #### The head -/

@[simp] theorem enterHead_retimed (x : HeadState) (s : State) : enterHead x (s.retimed c a n) = (enterHead x s).retimed c a n := by
  simp only [enterHead, setHead_retimed]
  rfl

@[simp] theorem releaseTest_retimed (s : State) : releaseTest (s.retimed c a n) = (releaseTest s).retimed c a n := by
  unfold releaseTest
  cases hp : s.tg.p with
  | none => simp only [retimed_tg, hp]
  | some p =>
    simp only [retimed_tg, retimed_ju, hp, setJoints_retimed, apply_ite (State.retimed c a n)]

@[simp] theorem leaveStirring_retimed (s : State) : leaveStirring (s.retimed c a n) = (leaveStirring s).retimed c a n := by
  simp only [leaveStirring, retimed_hs, releaseTest_retimed, apply_ite (State.retimed c a n)]
  rfl

@[simp] theorem enterRetracting_retimed (s : State) : enterRetracting (s.retimed c a n) = (enterRetracting s).retimed c a n := by
  simp only [enterRetracting, leaveStirring_retimed, enterHead_retimed]
  rfl

@[simp] theorem faultRetract_retimed (s : State) : faultRetract (s.retimed c a n) = (faultRetract s).retimed c a n := by
  simp only [faultRetract, retimed_hs, enterRetracting_retimed, apply_ite (State.retimed c a n)]
  rfl

@[simp] theorem normalRetract_retimed (s : State) : normalRetract (s.retimed c a n) = (normalRetract s).retimed c a n := by
  simp only [normalRetract, retimed_hs, retimed_tg, enterRetracting_retimed, apply_ite (State.retimed c a n)]
  rfl

@[simp] theorem spinUp_retimed (w : WeldParams) (s : State) : spinUp w (s.retimed c a n) = (spinUp w s).retimed c a n := by
  simp only [spinUp, enterHead_retimed]
  rfl

@[simp] theorem continueWeld_retimed (x y : Nat) (b : Bool) (s : State) :
    continueWeld x y b (s.retimed c a n) = (continueWeld x y b s).retimed c a n := by
  unfold continueWeld
  simp only [retimed_hs]
  split <;> rfl

/-! #### A LINE RESET pending stays so -/

@[simp] theorem raise_lineResetPending (f : AttentionFlag) (s : State) :
    (raise f s).su.lineResetPending = s.su.lineResetPending := (raise_calm f s).resetPending

@[simp] theorem setExecutor_lineResetPending (x : ExecutorState) (s : State) :
    (setExecutor x s).su.lineResetPending = s.su.lineResetPending := (setExecutor_calm x s).resetPending

@[simp] theorem setIndex_lineResetPending (i : Nat) (s : State) :
    (setIndex i s).su.lineResetPending = s.su.lineResetPending := (setIndex_calm i s).resetPending

@[simp] theorem closeJoints_lineResetPending (k : EndKind) (s : State) :
    (closeJoints k s).su.lineResetPending = s.su.lineResetPending := (closeJoints_calm k s).resetPending

@[simp] theorem notifyFetch_lineResetPending (r : PassRecord) (s : State) :
    (notifyFetch r s).su.lineResetPending = s.su.lineResetPending := (notifyFetch_calm r s).resetPending

@[simp] theorem startJoints_lineResetPending (r : PassRecord) (d : Direction) (s : State) :
    (startJoints r d s).su.lineResetPending = s.su.lineResetPending := (setJoints_calm _ s).resetPending

@[simp] theorem normalRetract_lineResetPending (s : State) :
    (normalRetract s).su.lineResetPending = s.su.lineResetPending := by
  rw [normalRetract_keeps s .su (by simp)]

@[simp] theorem faultRetract_lineResetPending (s : State) :
    (faultRetract s).su.lineResetPending = s.su.lineResetPending := by
  rw [faultRetract_keeps s .su (by simp)]

@[simp] theorem decideEnd_lineResetPending (e : Decision) (s : State) :
    (decideEnd e s).su.lineResetPending = s.su.lineResetPending := rfl

@[simp] theorem withdrawTarget_lineResetPending (s : State) :
    (withdrawTarget s).su.lineResetPending = s.su.lineResetPending := rfl

@[simp] theorem giveTarget_lineResetPending (m : MotionTarget) (d : Direction) (b : Bool) (s : State) :
    (giveTarget m d b s).su.lineResetPending = s.su.lineResetPending := rfl

/-! #### The chain's end and the fetch -/

theorem endChain_retimed (e : Decision) (h : s.su.lineResetPending = false) :
    endChain e (s.retimed c a n) = (endChain e s).retimed c a n := by
  have read : completionOf e (s.retimed c a n) = completionOf e s := rfl
  have free : freeAfterPosition (s.retimed c a n) = freeAfterPosition s := rfl
  simp only [endChain, read, free, retimed_px, retimed_su, withPx_retimed, withFree_retimed, setCompletionPending_retimed,
    setCompletionPending_su, State.withFree_su, State.withPx_su, h, Bool.false_eq_true, if_false, setExecutor_retimed,
    setStation_retimed, apply_ite (State.retimed c a n)]

@[simp] theorem closeStopping_retimed (e : Decision) (h : s.su.lineResetPending = false) :
    closeStopping e (s.retimed c a n) = (closeStopping e s).retimed c a n := by
  simp only [closeStopping, closeJoints_retimed, withdrawTarget_retimed]
  exact endChain_retimed e ((closeJoints_calm e.kind s).noReset h)

@[simp] theorem atRest_retimed (s : State) : atRest (s.retimed c a n) = atRest s := rfl

@[simp] theorem programCheck_retimed (d : Detail) (h : s.su.lineResetPending = false) :
    programCheck d (s.retimed c a n) = (programCheck d s).retimed c a n := by
  unfold programCheck
  simp only [retimed_px, withPx_retimed, raise_retimed]
  cases (raise .programCheck (s.withPx { s.px with passed := false })).px.role with
  | fresh => simp [h]
  | continuation => simp [h, apply_ite (State.retimed c a n)]

@[simp] theorem notifyFetch_retimed (r : PassRecord) (s : State) :
    notifyFetch r (s.retimed c a n) = (notifyFetch r s).retimed c a n := by
  simp [notifyFetch, apply_ite (State.retimed c a n)]

@[simp] theorem takeIndex_retimed (i : Nat) (s : State) :
    takeIndex i (s.retimed c a n) = (takeIndex i s).retimed c a n := by
  simp [takeIndex]

@[simp] theorem beginFetch_retimed (role : Role) (i : Nat) (h : s.su.lineResetPending = false) :
    beginFetch role i (s.retimed c a n) = (beginFetch role i s).retimed c a n := by
  simp [beginFetch, h, apply_ite (State.retimed c a n)]

@[simp] theorem startJoints_retimed (r : PassRecord) (d : Direction) (s : State) :
    startJoints r d (s.retimed c a n) = (startJoints r d s).retimed c a n :=
  setJoints_retimed _ s

@[simp] theorem clampOpen_retimed (h : s.su.lineResetPending = false) :
    clampOpen (s.retimed c a n) = (clampOpen s).retimed c a n := by
  simp [clampOpen, h]

@[simp] theorem startFreshWeld_retimed (r : PassRecord) (h : s.su.lineResetPending = false) :
    startFreshWeld r (s.retimed c a n) = (startFreshWeld r s).retimed c a n := by
  have direction (x : Nat) : travelDirection x (s.retimed c a n) = travelDirection x s := rfl
  have taken (t : State) : weldTaken (t.retimed c a n) = weldTaken t := rfl
  simp [startFreshWeld, direction, taken, h, apply_ite (State.retimed c a n)]

@[simp] theorem handRecordOn_retimed (r : PassRecord) (h : s.su.lineResetPending = false) :
    handRecordOn r (s.retimed c a n) = (handRecordOn r s).retimed c a n := by
  have direction (x : Nat) (t : State) : travelDirection x (t.retimed c a n) = travelDirection x t := rfl
  unfold handRecordOn
  cases he : s.dp.estop with
  | true => simp [he, h]
  | false =>
    simp only [retimed_estop, he, Bool.false_eq_true, if_false, setExecutor_retimed, retimed_px]
    split
    · simp [startTravel, direction]
    · simp [startTravel, direction]
    · simp
    · split
      · simp [h]
      · simp [startContinuation]
    · rfl

@[simp] theorem startRecord_retimed (r : PassRecord) (h : s.su.lineResetPending = false) :
    startRecord r (s.retimed c a n) = (startRecord r s).retimed c a n := by
  have waits : mustWait r (s.retimed c a n) = mustWait r s := rfl
  simp [startRecord, waits, h, apply_ite (State.retimed c a n)]

@[simp] theorem judgeAndStart_retimed (k : RecordKind) (r : PassRecord) (h : s.su.lineResetPending = false) :
    judgeAndStart k r (s.retimed c a n) = (judgeAndStart k r s).retimed c a n := by
  have judged : judgeRecord (s.retimed c a n) k r = judgeRecord s k r := rfl
  have passes : recordPasses k r (s.retimed c a n) = (recordPasses k r s).retimed c a n := rfl
  unfold judgeAndStart
  rw [judged, passes]
  split
  · simp [h]
  · exact startRecord_retimed r h

@[simp] theorem followBranch_retimed (r : PassRecord) (h : s.su.lineResetPending = false) :
    followBranch r (s.retimed c a n) = (followBranch r s).retimed c a n := by
  unfold followBranch
  split
  · simp [h]
  · simp only [setIndex_retimed, retimed_pm, retimed_px, withPx_retimed, notifyFetch_retimed]
    split
    · simp [h]
    · simp [h]
    · simp [h]

@[simp] theorem completeFetch_retimed (h : s.su.lineResetPending = false) :
    completeFetch (s.retimed c a n) = (completeFetch s).retimed c a n := by
  unfold completeFetch
  simp only [retimed_px, withPx_retimed]
  split
  · simp [h]
  · split
    · simp [h]
    · simp [h, apply_ite (State.retimed c a n)]
    · simp [h]

@[simp] theorem closeRecord_retimed (h : s.su.lineResetPending = false) :
    closeRecord (s.retimed c a n) = (closeRecord s).retimed c a n := by
  unfold closeRecord
  simp only [retimed_px]
  split
  · rfl
  · split
    · simp [h]
    · simp [h]

@[simp] theorem closeIfRest_retimed (h : s.su.lineResetPending = false) :
    closeIfRest (s.retimed c a n) = (closeIfRest s).retimed c a n := by
  simp [closeIfRest, h, apply_ite (State.retimed c a n)]

/-! #### The executor's turn, the causes and the end of the event -/

/-- R81: a PAUSE that has more to count. -/
theorem pauseCounts_of_more (h : 1 < s.px.pauseCount) :
    pauseCounts s = s.withPx { s.px with pauseCount := s.px.pauseCount - 1 } :=
  if_neg (Nat.sub_ne_zero_of_lt h)

theorem pauseCounts_retimed (h : s.su.lineResetPending = false) :
    pauseCounts (s.retimed c a n) = (pauseCounts s).retimed c a n := by
  by_cases hc : s.px.pauseCount ≤ 1
  · rw [pauseCounts_of_last hc, pauseCounts_of_last (s := s.retimed c a n) hc]
    exact closeRecord_retimed (s := pauseEnds s) h
  · rw [pauseCounts_of_more (Nat.lt_of_not_le hc), pauseCounts_of_more (s := s.retimed c a n) (Nat.lt_of_not_le hc)]
    rfl

theorem executorCloses_retimed (h : s.su.lineResetPending = false) :
    executorCloses (s.retimed c a n) = (executorCloses s).retimed c a n := by
  have rests : waitingForRest (s.retimed c a n) = waitingForRest s := rfl
  simp [executorCloses, rests, h, apply_ite (State.retimed c a n)]

/-- R71, R81, log 3: what the executor does at an expiry does not depend on the counts that the two other blocks advance. -/
theorem executorTurn_retimed (h : s.su.lineResetPending = false) :
    executorTurn (s.retimed c a n) = (executorTurn s).retimed c a n := by
  have paused : pausing (s.retimed c a n) = pausing s := rfl
  simp only [executorTurn, paused, pauseCounts_retimed h, executorCloses_retimed h, apply_ite (State.retimed c a n)]

theorem stoppingCause_retimed (e : Decision) (d : Detail) (h : s.su.lineResetPending = false) :
    stoppingCause e d (s.retimed c a n) = (stoppingCause e d s).retimed c a n := by
  have decided (t : State) : stoppingDecided (t.retimed c a n) = stoppingDecided t := rfl
  have filed (t : State) : fileSecondary d (t.retimed c a n) = (fileSecondary d t).retimed c a n := by
    simp [fileSecondary, apply_ite (State.retimed c a n)]
  unfold stoppingCause
  simp only [retimed_px]
  split
  · rfl
  · rfl
  · simp [h]
  · split
    · simp [h]
    · simp [awaitEnd, h]
  · simp [awaitEnd, h]
  · simp [decided, filed, apply_ite (State.retimed c a n)]
  · simp [filed]

theorem faultCause_retimed (d : Detail) (h : s.su.lineResetPending = false) :
    faultCause d (s.retimed c a n) = (faultCause d s).retimed c a n := by
  rw [faultCause, raise_retimed]
  exact stoppingCause_retimed _ d (by simp [h])

theorem beaconDue_retimed (s : State) : beaconDue (s.retimed c a n) = (beaconDue s).retimed c a n := by
  simp only [beaconDue, apply_ite (State.retimed c a n)]
  rfl

theorem reportChange_retimed (s : State) : reportChange (s.retimed c a n) = (reportChange s).retimed c a n := by
  simp only [reportChange, beaconDue_retimed, apply_ite (State.retimed c a n)]
  rfl

theorem settle_retimed (s : State) : settle (s.retimed c a n) = (settle s).retimed c a n := by
  simp only [settle, retimed_changeNoted, apply_ite (State.retimed c a n), ← reportChange_retimed]
  rfl

end Sys2Proof.Machine

namespace Sys2Proof.Machine

variable {s t u : State} {c : BitVec 32 → BitVec 32} {a n : Nat → Nat}

/-! ### The executor's turn starts no chain (R73) -/

/-- A chain that runs after the operation ran before it. -/
def StartsNoChain (s t : State) : Prop :=
  t.su.station = .running → s.su.station = .running

namespace StartsNoChain

theorem refl (s : State) : StartsNoChain s s := id

theorem trans (h : StartsNoChain s t) (k : StartsNoChain t u) : StartsNoChain s u := h ∘ k

theorem of_keeps {l : List Part} (h : Keeps l s t) (hl : .su ∉ l) : StartsNoChain s t := by
  rw [StartsNoChain, h .su hl]
  exact id

theorem of_flagsKeep {l : List AttentionFlag} (h : FlagsKeep l s t) : StartsNoChain s t := by
  rw [StartsNoChain, congrArg (fun x => x.station) h.2]
  exact id

theorem ite {p : Prop} [Decidable p] (h : StartsNoChain s t) (k : StartsNoChain s u) :
    StartsNoChain s (if p then t else u) := by
  split
  · exact h
  · exact k

end StartsNoChain

theorem raise_startsNoChain (f : AttentionFlag) (s : State) : StartsNoChain s (raise f s) :=
  .of_flagsKeep (raise_flagsKeep f s)

theorem notifyFetch_startsNoChain (r : PassRecord) (s : State) : StartsNoChain s (notifyFetch r s) := by
  unfold notifyFetch
  split
  · exact raise_startsNoChain .notify s
  · exact .refl s

theorem withPx_startsNoChain (x : PassExecutor) (s : State) : StartsNoChain s (s.withPx x) :=
  .of_keeps (withPx_keeps s x) (by simp)

theorem setExecutor_startsNoChain (x : ExecutorState) (s : State) : StartsNoChain s (setExecutor x s) :=
  .of_keeps (setExecutor_keeps x s) (by simp)

theorem normalRetract_startsNoChain (s : State) : StartsNoChain s (normalRetract s) :=
  .of_keeps (normalRetract_keeps s) (by simp)

theorem startJoints_startsNoChain (r : PassRecord) (d : Direction) (s : State) : StartsNoChain s (startJoints r d s) :=
  .of_keeps (startJoints_keeps r d s) (by simp)

theorem takeIndex_startsNoChain (i : Nat) (s : State) : StartsNoChain s (takeIndex i s) :=
  (StartsNoChain.of_keeps (setIndex_keeps i s) (by simp)).trans (notifyFetch_startsNoChain _ _)

/-- R91, R95: no chain runs after a chain's end. -/
theorem closeStopping_startsNoChain (e : Decision) (s : State) : StartsNoChain s (closeStopping e s) := by
  intro h
  simp only [closeStopping, endChain] at h
  split at h
  · cases h
  · split at h <;> (rw [setStation_su] at h; cases h)

theorem programCheck_startsNoChain (d : Detail) (s : State) : StartsNoChain s (programCheck d s) := by
  unfold programCheck
  extract_lets e p x
  have flagged : StartsNoChain s x := (withPx_startsNoChain p s).trans (raise_startsNoChain .programCheck _)
  split
  · exact flagged.trans (closeStopping_startsNoChain e x)
  · have waits : StartsNoChain x (setExecutor .awaitHeadEnd (decideEnd e (withdrawTarget x))) :=
      StartsNoChain.trans (.of_keeps (withdrawTarget_keeps x) (by simp))
        ((withPx_startsNoChain _ _).trans (setExecutor_startsNoChain .awaitHeadEnd (decideEnd e (withdrawTarget x))))
    have asked := (flagged.trans waits).trans (normalRetract_startsNoChain _)
    exact (asked.trans (closeStopping_startsNoChain e _)).ite asked

theorem beginFetch_startsNoChain (role : Role) (i : Nat) (s : State) : StartsNoChain s (beginFetch role i s) := by
  unfold beginFetch
  extract_lets x u
  have begun : StartsNoChain s u := (withPx_startsNoChain x s).trans (setExecutor_startsNoChain .fetching _)
  have failed : StartsNoChain u (programCheck .indexRange (u.withPx { u.px with record := none })) :=
    (withPx_startsNoChain _ u).trans (programCheck_startsNoChain .indexRange _)
  exact (begun.trans failed).ite (begun.trans (takeIndex_startsNoChain i u))

theorem startFreshWeld_startsNoChain (r : PassRecord) (s : State) : StartsNoChain s (startFreshWeld r s) := by
  unfold startFreshWeld
  extract_lets d x u
  have prepared : StartsNoChain s u := startJoints_startsNoChain r d x
  have refused : StartsNoChain u (clampOpen u) :=
    (raise_startsNoChain .fault u).trans (closeStopping_startsNoChain _ _)
  exact prepared.trans (StartsNoChain.ite (.of_keeps (spinUp_keeps _ u) (by simp)) (refused.ite (.refl u)))

theorem handRecordOn_startsNoChain (r : PassRecord) (s : State) : StartsNoChain s (handRecordOn r s) := by
  refine (closeStopping_startsNoChain _ s).ite ((setExecutor_startsNoChain .active s).trans ?_)
  generalize setExecutor .active s = x
  dsimp only
  split
  · exact .refl x
  · exact .refl x
  · exact .refl x
  · split
    · exact startFreshWeld_startsNoChain r x
    · have joined : StartsNoChain x (startJoints r x.tg.dir (giveTarget ⟨.weld, r.endPos, r.rate⟩ x.tg.dir true x)) :=
        startJoints_startsNoChain r x.tg.dir (giveTarget ⟨.weld, r.endPos, r.rate⟩ x.tg.dir true x)
      exact joined.trans (.of_keeps (continueWeld_keeps _ _ _ _) (by simp))
  · exact .refl x

theorem judgeAndStart_startsNoChain (k : RecordKind) (r : PassRecord) (s : State) :
    StartsNoChain s (judgeAndStart k r s) := by
  unfold judgeAndStart
  split
  · exact programCheck_startsNoChain _ s
  · have started : StartsNoChain (recordPasses k r s) (startRecord r (recordPasses k r s)) :=
      (setExecutor_startsNoChain .waitSlot _).ite (handRecordOn_startsNoChain r _)
    exact started

theorem followBranch_startsNoChain (r : PassRecord) (s : State) : StartsNoChain s (followBranch r s) := by
  unfold followBranch
  extract_lets u target x v
  have indexed : StartsNoChain s (setIndex r.rate s) := .of_keeps (setIndex_keeps r.rate s) (by simp)
  have noticed : StartsNoChain (setIndex r.rate s) v :=
    (withPx_startsNoChain x _).trans (notifyFetch_startsNoChain target _)
  have read := indexed.trans noticed
  split
  · exact programCheck_startsNoChain _ s
  · split
    · exact read.trans (programCheck_startsNoChain _ v)
    · exact read.trans (programCheck_startsNoChain _ v)
    · exact read.trans (judgeAndStart_startsNoChain _ _ v)

theorem completeFetch_startsNoChain (s : State) : StartsNoChain s (completeFetch s) := by
  unfold completeFetch
  extract_lets first x u
  have same : StartsNoChain s u := StartsNoChain.refl s
  refine same.trans ?_
  split
  · exact programCheck_startsNoChain _ u
  · split
    · exact programCheck_startsNoChain _ u
    · exact (programCheck_startsNoChain _ u).ite (followBranch_startsNoChain _ u)
    · exact judgeAndStart_startsNoChain _ _ u

theorem closeJoints_startsNoChain (k : EndKind) (s : State) : StartsNoChain s (closeJoints k s) := by
  have joined : StartsNoChain s (setJoints (jointsClosed k s.ju) s) := .of_keeps (setJoints_keeps _ s) (by simp)
  exact joined.trans ((raise_startsNoChain .jointVoided _).ite (.refl _))

theorem closeRecord_startsNoChain (s : State) : StartsNoChain s (closeRecord s) := by
  unfold closeRecord
  split
  · exact .refl s
  · next e _ =>
    split
    · exact closeStopping_startsNoChain e s
    · next role i _ =>
      have closed : StartsNoChain s ((withdrawTarget (closeJoints e.kind s)).withPx { s.px with firstRecord := false }) :=
        closeJoints_startsNoChain e.kind s
      exact closed.trans (beginFetch_startsNoChain role i _)

/-- R71, R73, R81. -/
theorem executorTurn_startsNoChain (s : State) : StartsNoChain s (executorTurn s) := by
  have counted : StartsNoChain s (pauseCounts s) :=
    StartsNoChain.ite (closeRecord_startsNoChain (decideEnd ⟨.complete, none⟩
      (s.withPx { s.px with pauseCount := s.px.pauseCount - 1 }))) (.refl s)
  have closed : StartsNoChain s (closeIfRest s) := (closeRecord_startsNoChain s).ite (.refl s)
  exact counted.ite (closed.ite ((completeFetch_startsNoChain s).ite (.refl s)))

end Sys2Proof.Machine

namespace Sys2Proof.Machine

variable {s t u : State} {c : BitVec 32 → BitVec 32} {a n : Nat → Nat}

/-! ### The three blocks' work at an expiry (R160, log 3) -/

/-- R153: the period count after an expiry that makes no beacon due, with the period at `b`. -/
def periodStep (b n : Nat) : Nat :=
  if n < b then n + 1 else n

/-- R153: this expiry makes no beacon due by the period. -/
theorem periodReached_eq_false (hp : s.pli.periodOverrun = false) (hc : s.pli.periodCount + 1 ≠ s.constants.beaconPeriod) :
    periodReached s = false := by
  simp [periodReached, hp, hc]

theorem periodReached_iff (s : State) : periodReached s = true
    ↔ s.pli.periodOverrun = true ∨ s.pli.periodCount + 1 = s.constants.beaconPeriod := by
  simp [periodReached]

theorem periodWork_of_not_reached (h : periodReached s = false) :
    periodWork s = s.retimed id id (periodStep s.constants.beaconPeriod) := by
  unfold periodWork periodStep State.retimed
  simp only [h, Bool.false_eq_true, if_false]
  split <;> rfl

/-- R153, R154: an expiry that has nothing for the line to do but count. -/
theorem lineWork_of_quiet (hh : s.pli.holdOff = false) (h : periodReached s = false) :
    lineWork s = s.retimed id id (periodStep s.constants.beaconPeriod) := by
  rw [lineWork, periodWork_of_not_reached h]
  exact if_neg (by rw [State.retimed, hh]; simp)

/-- R176: an expiry at which no feedback is lost. -/
theorem portWork_of_not_due (h : feedbackLostDue s = false) : portWork s = s.retimed id oneOn id := by
  simp only [portWork, h, Bool.false_eq_true, if_false, countUp_eq_oneOn]
  rfl

theorem feedbackLostDue_eq_false (h : s.su.station = .running → oneOn s.dp.age < 8 ∨ s.dp.lostReported = true) :
    feedbackLostDue s = false := by
  rw [Bool.eq_false_iff, ne_eq, feedbackLostDue_iff]
  rintro ⟨hr, ha, hl⟩
  rcases h hr with h | h
  · omega
  · rw [hl] at h
    cases h

/-- The executor's turn has nothing to do: no PAUSE counts, no end that waits finds rest, and no fetch is in progress. -/
theorem executorTurn_of_quiet (hp : pausing s = false) (hw : waitingForRest s = true → atRest s = false)
    (hf : s.px.state ≠ .fetching) : executorTurn s = s := by
  have waits (h : waitingForRest s = true) : closeIfRest s = s := by simp [closeIfRest, hw h]
  simp only [executorTurn, hp, executorCloses, hf, Bool.false_eq_true, if_false]
  split
  · next h => exact waits h
  · rfl

/-- An executor that neither counts a PAUSE nor waits nor fetches has nothing to do, whatever the other blocks are. -/
theorem executorTurn_of_free (hx : t.px = s.px) (hp : pausing s = false) (hw : waitingForRest s = false)
    (hf : s.px.state ≠ .fetching) : executorTurn t = t := by
  have paused : pausing t = pausing s := by rw [pausing, hx, pausing]
  have waits : waitingForRest t = waitingForRest s := by rw [waitingForRest, hx, waitingForRest]
  exact executorTurn_of_quiet (paused.trans hp) (fun h => by rw [waits, hw] at h; cases h) (by rw [hx]; exact hf)

theorem executorTurn_of_pausing (hp : pausing s = true) : executorTurn s = pauseCounts s := if_pos hp

theorem executorTurn_of_not_pausing (hp : pausing s = false) : executorTurn s = executorCloses s :=
  if_neg (by rw [hp]; exact Bool.false_ne_true)

theorem portWork_retimed_of_not_due (h : feedbackLostDue s = false) :
    portWork (s.retimed c id n) = s.retimed c oneOn n :=
  portWork_of_not_due (s := s.retimed c id n) h

theorem lineWork_retimed_of_quiet (hh : s.pli.holdOff = false) (h : periodReached s = false) :
    lineWork (s.retimed c a id) = s.retimed c a (periodStep s.constants.beaconPeriod) :=
  lineWork_of_quiet (s := s.retimed c a id) hh h

/-- Log 3: an expiry with nothing due for the port or the line is the executor's turn and the three counts, in any order. -/
theorem orderedWork_of_turn {free : List AttentionFlag} (o : ExpiryOrder) (hd : feedbackLostDue s = false)
    (hh : s.pli.holdOff = false) (hp : periodReached s = false)
    (commutes : ∀ c a n, executorTurn (s.retimed c a n) = (executorTurn s).retimed c a n)
    (calm : Calm free s (executorTurn s)) :
    orderedWork o { s with clock := s.clock + 1 }
      = (executorTurn s).retimed (· + 1) oneOn (periodStep s.constants.beaconPeriod) := by
  have starts := executorTurn_startsNoChain s
  generalize executorTurn s = t at commutes calm starts
  obtain ⟨-, -, -, count, overrun, holdOff, -⟩ := (lineKeeps_iff _ _).mp calm.line
  have constants : t.constants = s.constants := calm.kept .constants (by simp [stopParts])
  have port : t.dp = s.dp := calm.kept .dp (by simp [stopParts])
  have heldT : t.pli.holdOff = false := holdOff.trans hh
  have reachedT : periodReached t = false := by
    rw [← hp]
    simp only [periodReached, count, overrun, constants]
  have dueT : feedbackLostDue t = false := by
    rw [Bool.eq_false_iff, ne_eq, feedbackLostDue_iff, port]
    exact fun ⟨hr, lost⟩ => Bool.eq_false_iff.mp hd ((feedbackLostDue_iff s).mpr ⟨starts hr, lost⟩)
  have portS {c n} := portWork_retimed_of_not_due (c := c) (n := n) hd
  have portT {c n} := portWork_retimed_of_not_due (c := c) (n := n) dueT
  have lineS {c a} := lineWork_retimed_of_quiet (c := c) (a := a) hh hp
  have lineT {c a} := lineWork_retimed_of_quiet (c := c) (a := a) heldT reachedT
  show orderedWork o (s.retimed (· + 1) id id) = _
  cases o <;> simp only [orderedWork, portS, portT, lineS, lineT, commutes, constants]

/-- The three counts advanced beside what the chain has done. -/
theorem retimed_of_calm {free : List AttentionFlag} (calm : Calm free s t) :
    t.retimed (· + 1) oneOn (periodStep s.constants.beaconPeriod) = { t with
      clock := s.clock + 1, dp := { t.dp with age := oneOn s.dp.age }, pli := { t.pli with periodCount := periodOn s } } := by
  obtain ⟨-, -, -, count, -⟩ := (lineKeeps_iff _ _).mp calm.line
  rw [State.retimed, count, show t.dp.age = s.dp.age by rw [calm.kept .dp (by simp [stopParts])],
    show t.clock = s.clock from calm.kept .clock (by simp [stopParts])]
  rfl

/-- R71, R81, R160: an expiry at which at most the executor has something due. -/
theorem expiry_of_turn {free : List AttentionFlag} (o : ExpiryOrder) (hd : feedbackLostDue s = false)
    (hh : s.pli.holdOff = false) (hp : periodReached s = false)
    (commutes : ∀ c a n, executorTurn (s.retimed c a n) = (executorTurn s).retimed c a n)
    (calm : Calm free s (executorTurn s)) (ht : settle (executorTurn s) = t) :
    exec (.intervalClockExpiry o) s = .next { t with
      clock := s.clock + 1, dp := { t.dp with age := oneOn s.dp.age }, pli := { t.pli with periodCount := periodOn s } } := by
  show Host.Outcome.next (settle _) = _
  rw [orderedWork_of_turn o hd hh hp commutes calm, settle_retimed, ht, retimed_of_calm (ht ▸ calm.settle)]

theorem executorTurn_calm (h : s.su.lineResetPending = false) : Calm fetchFlags s (executorTurn s) := by
  have closes : Calm fetchFlags s (executorCloses s) := by
    unfold executorCloses
    split
    · exact closeIfRest_calm h
    · split
      · exact completeFetch_calm h
      · exact (Calm.refl s).mono (List.nil_subset _)
  unfold executorTurn
  split
  · unfold pauseCounts
    extract_lets p x
    have counted : Calm fetchFlags s x := (withPx_calm _ s).mono (List.nil_subset _)
    split
    · exact (counted.trans ((withPx_calm _ x).mono (List.nil_subset _))).trans (closeRecord_calm h)
    · exact counted
  · exact closes

/-- R71, R81, R160: an expiry at which the executor alone has something due. -/
theorem expiry_of_executor (o : ExpiryOrder) (hl : s.su.lineResetPending = false) (hd : feedbackLostDue s = false)
    (hh : s.pli.holdOff = false) (hp : periodReached s = false) (ht : settle (executorTurn s) = t) :
    exec (.intervalClockExpiry o) s = .next { t with
      clock := s.clock + 1, dp := { t.dp with age := oneOn s.dp.age }, pli := { t.pli with periodCount := periodOn s } } :=
  expiry_of_turn o hd hh hp (fun _ _ _ => executorTurn_retimed hl) (executorTurn_calm hl) ht

/-! ### Lost feedback at an expiry (R176) -/

theorem atRest_eq_false (h : 0 < s.tg.v ∨ s.hs.state ≠ .parked) : atRest s = false := by
  rcases h with hv | hs
  · simp [atRest, Nat.ne_of_gt hv]
  · simp [atRest, hs]

theorem AwaitsHead.moving {x : PassExecutor} (h : AwaitsHead x s t) (hm : 0 < s.tg.v ∨ s.hs.state ≠ .parked) :
    atRest t = false := by
  refine atRest_eq_false ?_
  rw [h.travel, h.head]
  refine hm.imp id (fun hs => ?_)
  split
  · exact fun hx => nomatch hx
  · exact hs

/-- The executor waits for a head or a carriage that is not at rest, and has nothing to do at an expiry. -/
theorem executorTurn_of_awaiting (hx : t.px.state = .awaitHeadEnd ∨ t.px.state = .halting) (hr : atRest t = false) :
    executorTurn t = t := by
  refine executorTurn_of_quiet ?_ (fun _ => hr) ?_
  · rcases hx with hx | hx <;> simp [pausing, hx]
  · rcases hx with hx | hx <;> simp [hx]

/-- R80, R82, R86, R90: where the chain has met a stopping cause, the executor's turn of the same expiry finds nothing to do. -/
theorem CauseOutcome.turn_quiet {e : Decision} {d : Detail} (o : CauseOutcome e d s t)
    (hm : s.px.state = .awaitHeadEnd ∨ s.px.state = .halting → 0 < s.tg.v ∨ s.hs.state ≠ .parked) :
    executorTurn t = t := by
  cases o with
  | atOnce ended _ _ _ =>
    obtain ⟨x, y, -, hx⟩ := ended.executor
    have stopped : t.px.state = .stopped := by rw [hx]; rfl
    exact executorTurn_of_quiet (by simp [pausing, stopped]) (by simp [waitingForRest, stopped]) (by simp [stopped])
  | slows waits _ moving => exact executorTurn_of_awaiting (.inl (by rw [waits.executor]; rfl)) (waits.moving moving)
  | replaces waits hx _ => exact executorTurn_of_awaiting (.inl (by rw [waits.executor]; rfl)) (waits.moving (hm (.inl hx)))
  | files waits hx =>
    have state : s.px.state = .awaitHeadEnd ∨ s.px.state = .halting := hx.elim .inr (fun h => .inl h.1)
    exact executorTurn_of_awaiting (by rw [waits.executor]; exact state) (waits.moving (hm state))

theorem portWork_retimed_of_due (hl : s.su.lineResetPending = false) (h : feedbackLostDue s = true) :
    portWork (s.retimed c id n) = (portWork s).retimed c id n := by
  have due : feedbackLostDue (s.retimed c id n) = true := h
  rw [portWork_of_due h, portWork_of_due due]
  exact faultCause_retimed (s := lossReported s) (c := c) (a := id) (n := n) _ hl

/-- R176, log 3: an expiry at which the loss of feedback stops the chain, whatever the order. -/
theorem orderedWork_of_loss (o : ExpiryOrder) (hl : s.su.lineResetPending = false) (hd : feedbackLostDue s = true)
    (hh : s.pli.holdOff = false) (hp : periodReached s = false) (before : executorTurn s = s)
    (after : executorTurn (portWork s) = portWork s) (calm : Calm [.fault, .jointVoided] (lossReported s) (portWork s)) :
    orderedWork o { s with clock := s.clock + 1 }
      = (portWork s).retimed (· + 1) id (periodStep s.constants.beaconPeriod) := by
  have port {c n} := portWork_retimed_of_due (c := c) (n := n) hl hd
  have pending := calm.noReset hl
  generalize portWork s = t at after calm port pending
  obtain ⟨-, -, -, count, overrun, holdOff, -⟩ := (lineKeeps_iff _ _).mp calm.line
  have constants : t.constants = s.constants := calm.kept .constants (by simp [stopParts])
  have heldT : t.pli.holdOff = false := holdOff.trans hh
  have reachedT : periodReached t = false := by
    rw [← hp]
    simp only [periodReached, count, overrun, constants]
    rfl
  have turnS {c a n} := (executorTurn_retimed (c := c) (a := a) (n := n) hl).trans (congrArg _ before)
  have turnT {c a n} := (executorTurn_retimed (c := c) (a := a) (n := n) pending).trans (congrArg _ after)
  have lineS {c a} := lineWork_retimed_of_quiet (c := c) (a := a) hh hp
  have lineT {c a} := lineWork_retimed_of_quiet (c := c) (a := a) heldT reachedT
  show orderedWork o (s.retimed (· + 1) id id) = _
  cases o <;> simp only [orderedWork, port, turnS, turnT, lineS, lineT, constants]

/-- R160, R176: an expiry at which the loss of feedback alone is due. -/
theorem expiry_of_loss (o : ExpiryOrder) (hl : s.su.lineResetPending = false) (hd : feedbackLostDue s = true)
    (hh : s.pli.holdOff = false) (hp : periodReached s = false) (before : executorTurn s = s)
    (hi : s.px.state ≠ .idle) (hs : s.px.state ≠ .stopped)
    (hm : s.px.state = .awaitHeadEnd ∨ s.px.state = .halting → 0 < s.tg.v ∨ s.hs.state ≠ .parked) :
    ∃ t, exec .feedbackLost s = .next t ∧ exec (.intervalClockExpiry o) s = .next { t with
      clock := s.clock + 1, pli := { t.pli with periodCount := periodOn s } } := by
  obtain ⟨ready, outcome⟩ := lossReported_causes hi hs hl
  have work := portWork_of_due hd
  have calm : Calm [.fault, .jointVoided] (lossReported s) (portWork s) := by
    rw [work]
    exact ((raise_calm .fault _).mono (by simp)).trans (outcome.calm.mono (by simp))
  have after : executorTurn (portWork s) = portWork s := by
    rw [work]
    exact outcome.turn_quiet (by rw [ready.executor, ready.speed, ready.head]; exact hm)
  refine ⟨settle (portWork s), congrArg Host.Outcome.next (if_pos hd), ?_⟩
  show Host.Outcome.next (settle _) = _
  rw [orderedWork_of_loss o hl hd hh hp before after calm, settle_retimed]
  have settled := calm.settle
  generalize settle (portWork s) = t at settled
  obtain ⟨-, -, -, count, -⟩ := (lineKeeps_iff _ _).mp settled.line
  rw [State.retimed, count, show t.clock = s.clock from settled.kept .clock (by simp [stopParts])]
  rfl

/-! ### The line's part of an expiry (R153, R154) -/

/-- What the line's part of an expiry touches: the Peer Line Interface alone, with no change noted by it. -/
def LineOnly (s t : State) : Prop :=
  Keeps [.pli] s t ∧ t.pli.changeNoted = s.pli.changeNoted

namespace LineOnly

theorem refl (s : State) : LineOnly s s := ⟨Keeps.refl _ s, rfl⟩

theorem trans (h : LineOnly s t) (k : LineOnly t u) : LineOnly s u := ⟨h.1.trans k.1, k.2.trans h.2⟩

end LineOnly

theorem withPli_lineOnly {x : PeerLine} (h : x.changeNoted = s.pli.changeNoted) : LineOnly s (s.withPli x) :=
  ⟨withPli_keeps s x, h⟩

theorem beaconDue_lineOnly (s : State) : LineOnly s (beaconDue s) := by
  unfold beaconDue
  split
  · exact withPli_lineOnly rfl
  · exact withPli_lineOnly rfl

theorem periodWork_lineOnly (s : State) : LineOnly s (periodWork s) := by
  unfold periodWork
  split
  · refine LineOnly.trans (withPli_lineOnly ?_) (beaconDue_lineOnly _)
    rfl
  · split
    · exact withPli_lineOnly rfl
    · exact .refl s

theorem holdOffWork_lineOnly (s : State) : LineOnly s (holdOffWork s) := by
  unfold holdOffWork
  split
  · extract_lets x u
    have ended : LineOnly s u := withPli_lineOnly rfl
    split
    · refine (ended.trans (withPli_lineOnly ?_)).trans (beaconDue_lineOnly _)
      rfl
    · exact ended
  · exact .refl s

theorem holdOffWork_retimed (s : State) : holdOffWork (s.retimed c a n) = (holdOffWork s).retimed c a n := by
  have due (x y : PeerLine) : beaconDue (((s.withPli x).withPli y).retimed c a n)
      = (beaconDue ((s.withPli x).withPli y)).retimed c a n := beaconDue_retimed _
  simp only [holdOffWork, apply_ite (State.retimed c a n), ← due]
  rfl

theorem holdOffWork_periodCount (s : State) : (holdOffWork s).pli.periodCount = s.pli.periodCount := by
  have due (x : State) : (beaconDue x).pli.periodCount = x.pli.periodCount := by
    unfold beaconDue
    split <;> rfl
  unfold holdOffWork
  split
  · extract_lets x u
    split
    · exact due _
    · rfl
  · rfl

theorem periodWork_retimed (s : State) : periodWork (s.retimed c a id) = (periodWork s).retimed c a id := by
  simp only [periodWork, apply_ite (State.retimed c a id), ← beaconDue_retimed]
  rfl

theorem lineWork_retimed (s : State) : lineWork (s.retimed c a id) = (lineWork s).retimed c a id := by
  rw [lineWork, periodWork_retimed, holdOffWork_retimed, lineWork]

/-- R153, R154, log 3: an expiry at which nothing but the line's part is due: that part, the count and the feedback age, in any
order. -/
theorem orderedWork_of_line (o : ExpiryOrder) (hd : feedbackLostDue s = false) (hp : pausing s = false)
    (hw : waitingForRest s = false) (hf : s.px.state ≠ .fetching) :
    orderedWork o { s with clock := s.clock + 1 } = (lineWork s).retimed (· + 1) oneOn id := by
  have line : LineOnly s (lineWork s) := (periodWork_lineOnly s).trans (holdOffWork_lineOnly _)
  have turnS {c a n} : executorTurn (s.retimed c a n) = s.retimed c a n := executorTurn_of_free rfl hp hw hf
  have turnT {c a n} : executorTurn ((lineWork s).retimed c a n) = (lineWork s).retimed c a n :=
    executorTurn_of_free (line.1 .px (by simp)) hp hw hf
  have dueT : feedbackLostDue (lineWork s) = false := by
    rw [← hd, feedbackLostDue, feedbackLostDue, line.1 .su (by simp), line.1 .dp (by simp)]
  have portS {c n} := portWork_retimed_of_not_due (c := c) (n := n) hd
  have portT {c n} := portWork_retimed_of_not_due (c := c) (n := n) dueT
  show orderedWork o (s.retimed (· + 1) id id) = _
  cases o <;> simp only [orderedWork, portS, portT, turnS, turnT, lineWork_retimed]

/-- R153, R154, R160: an expiry at which nothing but the line's part is due. -/
theorem expiry_of_line (o : ExpiryOrder) (hn : s.pli.changeNoted = false) (hd : feedbackLostDue s = false)
    (hp : pausing s = false) (hw : waitingForRest s = false) (hf : s.px.state ≠ .fetching) :
    exec (.intervalClockExpiry o) s = .next { lineWork s with
      clock := s.clock + 1, dp := { s.dp with age := oneOn s.dp.age } } := by
  have line : LineOnly s (lineWork s) := (periodWork_lineOnly s).trans (holdOffWork_lineOnly _)
  have clock : (lineWork s).clock = s.clock := line.1 .clock (by simp)
  have port : (lineWork s).dp = s.dp := line.1 .dp (by simp)
  show Host.Outcome.next (settle _) = _
  rw [orderedWork_of_line o hd hp hw hf, settle_retimed, settle_of_quiet (line.2.trans hn), State.retimed, clock, port]
  rfl

theorem beaconPeriodDue_exec (hn : s.pli.changeNoted = false) (h : periodReached s = true) :
    exec .beaconPeriodDue s = .next (periodWork s) := by
  show Host.Outcome.next _ = _
  rw [if_pos h, settle_of_quiet ((periodWork_lineOnly s).2.trans hn)]

theorem holdOffEnd_exec (hn : s.pli.changeNoted = false) : exec .holdOffEnd s = .next (holdOffWork s) := by
  show Host.Outcome.next (settle _) = _
  rw [settle_of_quiet ((holdOffWork_lineOnly s).2.trans hn)]

/-! ### An interval expiry (R81, R153, R154, R160, R176) -/

theorem pausing_iff (s : State) :
    pausing s = true ↔ s.px.state = .active ∧ ∃ r, s.px.record = some r ∧ r.kind = some .pause := by
  simp [pausing, Option.bind_eq_some_iff]

theorem pausing_eq_false_iff (s : State) :
    pausing s = false ↔ ¬ (s.px.state = .active ∧ ∃ r, s.px.record = some r ∧ r.kind = some .pause) := by
  rw [← pausing_iff, Bool.not_eq_true]

theorem waitingForRest_iff (s : State) :
    waitingForRest s = true ↔ s.px.state = .awaitHeadEnd ∨ s.px.state = .halting := by
  simp [waitingForRest]

theorem waitingForRest_eq_false (ha : s.px.state ≠ .awaitHeadEnd) (hh : s.px.state ≠ .halting) :
    waitingForRest s = false := by
  simp [waitingForRest, ha, hh]

/-- R160: an expiry that makes nothing due. -/
theorem expiry_of_idle_turn (o : ExpiryOrder) (hn : s.pli.changeNoted = false) (hd : feedbackLostDue s = false)
    (hh : s.pli.holdOff = false) (hp : periodReached s = false) (hs : pausing s = false) (hw : waitingForRest s = false)
    (hf : s.px.state ≠ .fetching) :
    exec (.intervalClockExpiry o) s = .next { s with
      clock := s.clock + 1, dp := { s.dp with age := oneOn s.dp.age }, pli := { s.pli with periodCount := periodOn s } } := by
  have turn {c a n} : executorTurn (s.retimed c a n) = s.retimed c a n := executorTurn_of_free rfl hs hw hf
  have same : executorTurn s = s := turn (c := id) (a := id) (n := id)
  refine expiry_of_turn (free := []) o hd hh hp (fun _ _ _ => ?_) ?_ ?_
  · rw [turn, same]
  · rw [same]
    exact .refl s
  · rw [same, settle_of_quiet hn]

/-- R81, R160: an expiry at which a PAUSE has more to count. -/
theorem expiry_of_counting (o : ExpiryOrder) (hn : s.pli.changeNoted = false) (hd : feedbackLostDue s = false)
    (hh : s.pli.holdOff = false) (hp : periodReached s = false) (hs : pausing s = true) (hc : 1 < s.px.pauseCount) :
    exec (.intervalClockExpiry o) s = .next { s with
      clock := s.clock + 1, dp := { s.dp with age := oneOn s.dp.age }
      px := { s.px with pauseCount := s.px.pauseCount - 1 }, pli := { s.pli with periodCount := periodOn s } } := by
  have turn {c a n} : executorTurn (s.retimed c a n)
      = (s.withPx { s.px with pauseCount := s.px.pauseCount - 1 }).retimed c a n :=
    (executorTurn_of_pausing (s := s.retimed c a n) hs).trans (pauseCounts_of_more (s := s.retimed c a n) hc)
  have counted : executorTurn s = s.withPx { s.px with pauseCount := s.px.pauseCount - 1 } :=
    turn (c := id) (a := id) (n := id)
  refine expiry_of_turn (free := []) (t := s.withPx { s.px with pauseCount := s.px.pauseCount - 1 }) o hd hh hp
    (fun _ _ _ => ?_) ?_ ?_
  · rw [turn, counted]
  · rw [counted]
    exact withPx_calm _ s
  · rw [counted, settle_of_quiet (by exact hn)]

/-- Settles O29. -/
theorem intervalExpiryCounts : Obligations.IntervalExpiryCounts := by
  refine ⟨fun o s hn hlost ha hh hf hold hover hper => ?_, fun o s hn hl hold hover hper => ⟨fun hlost => ?_, ?_⟩,
    fun o s hn hlost ha hh hf hnp => ?_⟩
  · have due := feedbackLostDue_eq_false hlost
    have reached := periodReached_eq_false hover hper
    refine ⟨fun hnp => ?_, fun r hx hr hk hc => ?_⟩
    · exact expiry_of_idle_turn o hn due hold reached ((pausing_eq_false_iff s).mpr hnp) (waitingForRest_eq_false ha hh) hf
    · exact expiry_of_counting o hn due hold reached (pausing_of_pause hx hr hk) hc
  · have due := feedbackLostDue_eq_false hlost
    have reached := periodReached_eq_false hover hper
    refine ⟨fun r hx hr hk hc => ?_, fun hw => ?_⟩
    · have paused := pausing_of_pause hx hr hk
      refine ⟨_, pauseEnd_exec paused hc, expiry_of_executor o hl due hold reached ?_⟩
      rw [executorTurn_of_pausing paused, pauseCounts_of_last hc]
    · have unpaused : pausing s = false := by rcases hw with hw | hw | hw <;> simp [pausing, hw]
      refine ⟨settle (executorCloses s), rfl, expiry_of_executor o hl due hold reached ?_⟩
      rw [executorTurn_of_not_pausing unpaused]
  · intro hrun hrep hage hx
    have due : feedbackLostDue s = true := (feedbackLostDue_iff s).mpr ⟨hrun, hage, hrep⟩
    have reached := periodReached_eq_false hover hper
    have moving : s.px.state = .awaitHeadEnd ∨ s.px.state = .halting → 0 < s.tg.v ∨ s.hs.state ≠ .parked := by
      rcases hx with hx | ⟨hx, -⟩ | ⟨-, hm⟩
      · simp [hx]
      · simp [hx]
      · exact fun _ => hm
    have unpaused : pausing s = false := by
      rw [pausing_eq_false_iff]
      rintro ⟨ha, r, hr, hk⟩
      rcases hx with hx | ⟨-, hx⟩ | ⟨hx | hx, -⟩
      · rw [ha] at hx; cases hx
      · exact hx r hr hk
      · rw [ha] at hx; cases hx
      · rw [ha] at hx; cases hx
    have underWay : s.px.state ≠ .fetching ∧ s.px.state ≠ .idle ∧ s.px.state ≠ .stopped := by
      rcases hx with hx | ⟨hx, -⟩ | ⟨hx | hx, -⟩ <;> simp [hx]
    obtain ⟨hf, hi, hs⟩ := underWay
    refine expiry_of_loss o hl due hold reached ?_ hi hs moving
    exact executorTurn_of_quiet unpaused (fun h => atRest_eq_false (moving ((waitingForRest_iff s).mp h))) hf
  · have due := feedbackLostDue_eq_false hlost
    have expiry := expiry_of_line o hn due ((pausing_eq_false_iff s).mpr hnp) (waitingForRest_eq_false ha hh) hf
    refine ⟨fun hper => ?_, fun hover hper => ?_⟩
    · have reached := (periodReached_iff s).mpr hper
      exact ⟨_, _, beaconPeriodDue_exec hn reached, holdOffEnd_exec ((periodWork_lineOnly s).2.trans hn), expiry⟩
    · have reached := periodReached_eq_false hover hper
      refine ⟨_, holdOffEnd_exec hn, ?_⟩
      have count : (holdOffWork s).pli.periodCount = s.pli.periodCount := holdOffWork_periodCount s
      rw [expiry, lineWork, periodWork_of_not_reached reached, holdOffWork_retimed, State.retimed, count]
      rfl

end Sys2Proof.Machine

namespace Sys2Proof.Machine

variable {s t : State} {w : WeldParams}

/-! ### An expiry at which the head finds nothing (R103 to R105, R108, R113, R121) -/

/-- The head after the counts of an expiry (R121). -/
def headCounted (h : HeadSequencer) : HeadSequencer :=
  { h with phase := oneOn h.phase, forceAge := oneOn h.forceAge }

theorem headCounts_eq (s : State) : headCounts s = s.withHs (headCounted s.hs) := by
  simp only [headCounts, countUp_eq_oneOn, headCounted]

/-- The ramps and the force step leave what the checks of the expiry look at. -/
theorem headRamps_keeps_checked (s : State) : (headRamps s).hs.state = s.hs.state ∧ (headRamps s).hs.phase = s.hs.phase
    ∧ (headRamps s).hs.forceAge = s.hs.forceAge ∧ (headRamps s).hs.weld = s.hs.weld
    ∧ (headRamps s).hs.retractPending = s.hs.retractPending := by
  unfold headRamps
  split
  · exact ⟨rfl, rfl, rfl, rfl, rfl⟩
  · next w _ _ =>
    split
    · obtain ⟨l, he, -⟩ := forceStep_eq w s
      rw [he]
      exact ⟨rfl, rfl, rfl, rfl, rfl⟩
    · exact ⟨rfl, rfl, rfl, rfl, rfl⟩
  · exact ⟨rfl, rfl, rfl, rfl, rfl⟩
  · exact ⟨rfl, rfl, rfl, rfl, rfl⟩

/-- What the checks of an expiry look at in the state `t`, once the counts and the ramps of the state `s` are made. -/
structure Counted (s t : State) : Prop where
  state : t.hs.state = s.hs.state
  phase : t.hs.phase = oneOn s.hs.phase
  age : t.hs.forceAge = oneOn s.hs.forceAge
  weld : t.hs.weld = s.hs.weld
  pending : t.hs.retractPending = s.hs.retractPending
  travel : t.tg = s.tg
  constants : t.constants = s.constants

theorem headRamps_counted (s : State) : Counted s (headRamps (headCounts s)) := by
  obtain ⟨state, phase, age, weld, pending⟩ := headRamps_keeps_checked (headCounts s)
  have kept : Keeps [.hs, .su, .pli] s (headRamps (headCounts s)) :=
    (headCounts_keeps s).then (headRamps_keeps _) (by rfl) (by rfl)
  rw [headCounts_eq] at state phase age weld pending kept ⊢
  exact ⟨state, phase, age, weld, pending, kept .tg (by decide), kept .constants (by decide)⟩

/-- At an expiry of the head in the state `s` no check finds anything: no lost force, no timeout, no end of a dwell. -/
structure NothingEnds (s : State) : Prop where
  force : s.hs.state.pressing = true → oneOn s.hs.forceAge < 32
  spin : s.hs.state = .spinningUp → oneOn s.hs.phase < s.constants.spinUpTimeout
  plunge : s.hs.state = .plunging → oneOn s.hs.phase < s.constants.plungeTimeout
  dwell : s.hs.state = .dwelling → ∀ w, s.hs.weld = some w → oneOn s.hs.phase < w.dwell
  retract : s.hs.state = .retracting → oneOn s.hs.phase < s.constants.retractTimeout

theorem NothingEnds.forceCheck (h : NothingEnds s) (c : Counted s t) : forceCheck t = t := by
  refine if_neg fun found => ?_
  simp only [forceLostFound, c.state, c.age, Bool.and_eq_true, decide_eq_true_eq] at found
  exact absurd (h.force found.1) (Nat.not_lt.mpr found.2)

theorem NothingEnds.phaseCheck (h : NothingEnds s) (c : Counted s t) : phaseCheck t = t := by
  have intime : phaseTimeout t = none := by
    unfold phaseTimeout
    rw [c.state, c.phase, c.constants]
    split
    · next hs => exact if_neg (Nat.not_le.mpr (h.spin hs))
    · next hs => exact if_neg (Nat.not_le.mpr (h.plunge hs))
    · rfl
  have retracts : retractTimedOut t = false := by
    simp only [retractTimedOut, c.state, c.phase, c.constants, Bool.and_eq_false_imp, beq_iff_eq, decide_eq_false_iff_not]
    exact fun hs => Nat.not_le.mpr (h.retract hs)
  have dwells : dwellDone t = none := by
    unfold dwellDone
    rw [c.state, c.weld, c.phase]
    split
    · next w hs hw => exact if_neg (Nat.not_le.mpr (h.dwell hs w hw))
    · rfl
  simp only [Machine.phaseCheck, intime, retracts, endDwell, dwells, Bool.false_eq_true, if_false]

/-- R121: such an expiry is its counts, its ramps and force step, and the start of a pending retract, whichever check comes
first. -/
theorem NothingEnds.headExpiry (h : NothingEnds s) (b : Bool) :
    headExpiry b s = startPendingRetract (headRamps (headCounts s)) := by
  have counted := headRamps_counted s
  simp only [Machine.headExpiry, h.forceCheck counted, h.phaseCheck counted, ite_self]

theorem startPendingRetract_of_not_due (h : s.hs.state ≠ .stirring ∨ s.hs.retractPending = false ∨ 0 < s.tg.v) :
    pendingRetractDue s = false ∧ startPendingRetract s = s := by
  have undue : pendingRetractDue s = false := by
    rcases h with h | h | h
    · simp [pendingRetractDue, h]
    · simp [pendingRetractDue, h]
    · simp [pendingRetractDue, Nat.pos_iff_ne_zero.mp h]
  exact ⟨undue, by simp [startPendingRetract, undue]⟩

/-! ### The ramps, by head state (R104, R107, R112) -/

theorem headRamps_of_still (h : s.hs.state = .parked ∨ s.hs.state = .halted ∨ s.hs.state = .spinningUp ∨ s.hs.state = .dwelling) :
    headRamps s = s := by
  rcases h with h | h | h | h <;> simp [headRamps, h]

theorem headRamps_of_plunging (hs : s.hs.state = .plunging) (hw : s.hs.weld = some w) : headRamps s = s.withHs { s.hs with
    zCommand := if s.hs.zCommand + w.plungeRate ≤ w.depth then s.hs.zCommand + w.plungeRate else w.depth } := by
  simp only [headRamps, hs, hw, min_eq_ite]

theorem headRamps_of_retracting (hs : s.hs.state = .retracting) : headRamps s = s.withHs { s.hs with
    zCommand := if s.constants.retractRate ≤ s.hs.zCommand then s.hs.zCommand - s.constants.retractRate else 0 } := by
  simp only [headRamps, hs, ← sub_eq_ite]

theorem headRamps_of_stirring (hs : s.hs.state = .stirring) (hw : s.hs.weld = some w) :
    headRamps s = if s.hs.forceAge < 8 then forceStep w s else s := by
  simp only [headRamps, hs, hw]
  rfl

/-- R121: the head's work where nothing ends and no retract is due to start. -/
theorem NothingEnds.headExpiryWork (h : NothingEnds s) (hp : s.hs.state ≠ .stirring ∨ s.hs.retractPending = false ∨ 0 < s.tg.v)
    (hr : headRamps (headCounts s) = t) : exec .headExpiryWork s = .next (settle t) := by
  have counted := headRamps_counted s
  rw [hr] at counted
  have resting := (startPendingRetract_of_not_due (s := t) (by rw [counted.state, counted.pending, counted.travel]; exact hp)).2
  show Host.Outcome.next (settle (Machine.headExpiry false s)) = _
  rw [h.headExpiry, hr, resting]

/-- Settles O34; the obligation's own name is that of the model's function. -/
theorem headRamps_at_expiry : Obligations.HeadRamps := by
  intro s hn
  have counted := headCounts_eq s
  have quietly {t : State} (quiet : NothingEnds s) (hs : s.hs.state ≠ .stirring) (ramps : headRamps (headCounts s) = t)
      (ht : t.pli = s.pli) : exec .headExpiryWork s = .next t := by
    rw [quiet.headExpiryWork (.inl hs) ramps, settle_of_quiet (by rw [ht, hn])]
  refine ⟨fun h => ?_, fun w hs hw hphase hage => ?_, fun hs hphase => ?_⟩
  · have quiet : NothingEnds s := by
      rcases h with h | h | ⟨h, intime⟩ | ⟨h, fresh, short⟩
      · constructor <;> simp [h, HeadState.pressing]
      · constructor <;> simp [h, HeadState.pressing]
      · exact ⟨by simp [h, HeadState.pressing], fun _ => intime, by simp [h], by simp [h], by simp [h]⟩
      · exact ⟨fun _ => fresh, by simp [h], by simp [h], fun _ => short, by simp [h]⟩
    have still := headRamps_of_still (s := headCounts s) (h.imp_right (·.imp_right (·.imp (·.1) (·.1))))
    refine quietly quiet ?_ (still.trans counted) rfl
    rcases h with h | h | ⟨h, -⟩ | ⟨h, -⟩ <;> simp [h]
  · have quiet : NothingEnds s := ⟨fun _ => hage, by simp [hs], fun _ => hphase, by simp [hs], by simp [hs]⟩
    rw [quietly quiet (by simp [hs]) (headRamps_of_plunging hs hw) rfl, counted]
    rfl
  · have quiet : NothingEnds s :=
      ⟨by simp [hs, HeadState.pressing], by simp [hs], by simp [hs], by simp [hs], fun _ => hphase⟩
    rw [quietly quiet (by simp [hs]) (headRamps_of_retracting hs) rfl, counted]
    rfl

end Sys2Proof.Machine

namespace Sys2Proof.Machine

variable {s t : State} {w : WeldParams} {p : Nat}

/-! ### The force step of an expiry (R107, R108) -/

theorem clampInt_eq_limited {lo hi : Int} (h : lo ≤ hi) (x : Int) : clampInt lo hi x = limited lo hi x := by
  unfold clampInt limited
  split
  · omega
  · split <;> omega

/-- Steps 1 to 4 of R107 in the words of the obligations: the sum of the trim and the bounded step. -/
theorem trimSum_eq (hp : s.tg.p = some p) : trimSum s w = s.hs.trim
    + limited (-(s.constants.maxTrimStep : Int)) s.constants.maxTrimStep (Int.tdiv
      ((limited 0 4095 (w.setpoint + (decodeRegion s.rm p).offset) - s.hs.force) * s.constants.forceGain) 64) := by
  have setpoint : effectiveSetpoint w.setpoint (descriptorAtP s).offset
      = limited 0 4095 (w.setpoint + (decodeRegion s.rm p).offset) := by
    simp only [effectiveSetpoint, descriptorAtP, hp]
    exact clampInt_eq_limited (by decide) _
  rw [trimSum, trimStep, setpoint, clampInt_eq_limited (by omega)]

/-- The trim that a force step gives (R107). -/
def trimGiven (w : WeldParams) (s : State) : Int :=
  limited (-(s.constants.trimLimit : Int)) s.constants.trimLimit (trimSum s w)

theorem clampInt_trimSum (w : WeldParams) (s : State) :
    clampInt (-(s.constants.trimLimit : Int)) s.constants.trimLimit (trimSum s w) = trimGiven w s :=
  clampInt_eq_limited (by omega) _

theorem forceStep_hs (w : WeldParams) (s : State) : (forceStep w s).hs = { s.hs with
    trim := trimGiven w s, zCommand := (limited 0 12000 (w.depth + trimGiven w s)).toNat } := by
  obtain ⟨l, he, -⟩ := forceStep_eq w s
  have depth : trimmedDepth w.depth (trimGiven w s) = (limited 0 12000 (w.depth + trimGiven w s)).toNat :=
    congrArg Int.toNat (clampInt_eq_limited (by decide) _)
  rw [he, ← depth, ← clampInt_trimSum]

/-- R107: FORCE_SATURATED is set where the trim clamp changes the sum. -/
theorem forceStep_flag (w : WeldParams) (s : State) :
    (forceStep w s).flag .forceSaturated = (s.flag .forceSaturated || decide (trimGiven w s ≠ trimSum s w)) := by
  refine (State.flag_raiseIf _ .forceSaturated .forceSaturated _).trans ?_
  rw [decide_eq_true rfl, Bool.and_true, clampInt_trimSum]
  rfl

theorem forceStep_flagsKeep (w : WeldParams) (s : State) : FlagsKeep [.forceSaturated] s (forceStep w s) :=
  raiseIf_flagsKeep _ .forceSaturated (s.withHs _)

theorem forceStep_line (w : WeldParams) (s : State) : LineKeeps s.pli (forceStep w s).pli := by
  obtain ⟨l, he, line⟩ := forceStep_eq w s
  rw [he]
  exact line

/-- What an expiry of a head STIRRING makes of the state `s`, up to its checks: the counts, and the force step while the force
age is below 8. -/
structure ForceStepped (w : WeldParams) (s t : State) : Prop where
  kept : Keeps [.hs, .su, .pli] s t
  flags : FlagsKeep [.forceSaturated] s t
  line : LineKeeps s.pli t.pli
  head : t.hs = { headCounted s.hs with trim := t.hs.trim, zCommand := t.hs.zCommand }
  held : 8 ≤ oneOn s.hs.forceAge → t = s.withHs (headCounted s.hs)
  stepped : oneOn s.hs.forceAge < 8 → t.hs.trim = trimGiven w s
    ∧ t.hs.zCommand = (limited 0 12000 (w.depth + trimGiven w s)).toNat
    ∧ t.flag .forceSaturated = (s.flag .forceSaturated || decide (trimGiven w s ≠ trimSum s w))

theorem headRamps_forceStepped (hs : s.hs.state = .stirring) (hw : s.hs.weld = some w) :
    ForceStepped w s (headRamps (headCounts s)) := by
  rw [headCounts_eq, headRamps_of_stirring (s := s.withHs (headCounted s.hs)) hs hw]
  split
  · next fresh =>
    have head := forceStep_hs w (s.withHs (headCounted s.hs))
    refine ⟨(withHs_keeps s _).then (forceStep_keeps w _) (by rfl) (by rfl), forceStep_flagsKeep w (s.withHs _),
      forceStep_line w (s.withHs (headCounted s.hs)), by rw [head]; rfl, fun late => absurd fresh (Nat.not_lt.mpr late), fun _ => ?_⟩
    rw [head]
    exact ⟨rfl, rfl, forceStep_flag w _⟩
  · next stale =>
    exact ⟨(withHs_keeps s _).mono (by rfl), ⟨fun _ _ => rfl, rfl⟩, rfl, rfl, fun _ => rfl, fun fresh => absurd fresh stale⟩

theorem ForceStepped.settle (h : ForceStepped w s t) : Keeps [.hs, .su, .pli] s (settle t)
    ∧ FlagsKeep [.forceSaturated] s (settle t) ∧ LineKeeps s.pli (settle t).pli :=
  ⟨(settle_keeps t).via h.kept (by rfl), h.flags.settle, h.line.trans (lineKeeps_settle t)⟩

theorem nothingEnds_of_stirring (hs : s.hs.state = .stirring) (hage : oneOn s.hs.forceAge < 32) : NothingEnds s :=
  ⟨fun _ => hage, by simp [hs], by simp [hs], by simp [hs], by simp [hs]⟩

/-- Settles O33. -/
theorem forceStepTrims : Obligations.ForceStepTrims := by
  intro s w p hs hw hp hr
  have stepped := headRamps_forceStepped hs hw
  have undue : s.hs.state ≠ .stirring ∨ s.hs.retractPending = false ∨ 0 < s.tg.v := by
    cases hpend : s.hs.retractPending with
    | false => exact .inr (.inl rfl)
    | true => exact .inr (.inr (hr hpend))
  refine ⟨fun fresh => ?_, fun late hage hn => ?_⟩
  · obtain ⟨trim, depth, flag⟩ := stepped.stepped fresh
    obtain ⟨kept, flags, line⟩ := stepped.settle
    refine ⟨settle (headRamps (headCounts s)), ?_, kept, flags, line, _, _, rfl, rfl, ?_, ?_⟩
    · exact (nothingEnds_of_stirring hs (by omega)).headExpiryWork undue rfl
    · rw [settle_hs, stepped.head, trim, depth, trimGiven, trimSum_eq hp]
      rfl
    · rw [State.flag_settle, flag, trimGiven, trimSum_eq hp]
  · have held := stepped.held late
    rw [(nothingEnds_of_stirring hs hage).headExpiryWork undue held, settle_of_quiet (by exact hn)]
    rfl

/-! ### A pending retract begins (R114) -/

/-- Settles O38. -/
theorem pendingRetractStarts : Obligations.PendingRetractStarts := by
  intro s
  refine ⟨fun w hs hpend hv hw hage => ?_, fun h => ?_⟩
  · obtain ⟨r, hr⟩ : ∃ r, r = headRamps (headCounts s) := ⟨_, rfl⟩
    have stepped : ForceStepped w s r := hr ▸ headRamps_forceStepped hs hw
    have counted : Counted s r := hr ▸ headRamps_counted s
    have due : pendingRetractDue s = true := by simp [pendingRetractDue, hs, hpend, hv]
    have starts : startPendingRetract r = enterRetracting r := by
      simp [startPendingRetract, pendingRetractDue, counted.state, counted.pending, counted.travel, hs, hpend, hv]
    have hexec : exec .pendingRetractStart s = .next (settle (enterRetracting r)) := by
      show Host.Outcome.next (if pendingRetractDue s then settle (headExpiry false s) else s) = _
      rw [if_pos due, (nothingEnds_of_stirring hs hage).headExpiry, ← hr, starts]
    obtain ⟨l, j, he, line, left⟩ := enterRetracting_eq r
    have kept : Keeps [.tg, .hs, .ju, .su, .pli] s (settle (enterRetracting r)) :=
      (settle_keeps _).via ((enterRetracting_keeps r).via (stepped.kept.mono (by rfl)) (by rfl)) (by rfl)
    obtain ⟨x, hx⟩ : ∃ x, x = enterRetracting r := ⟨_, rfl⟩
    rw [← hx] at he hexec kept
    refine ⟨settle x, hexec, kept, ?_, ?_, ?_, ?_, ?_, fun late => ?_, fun p hp fresh => ?_⟩
    · rw [he]
      exact FlagsKeep.settle stepped.flags
    · refine (stepped.line.trans ?_).trans (lineKeeps_settle x)
      rw [he]
      exact line
    · rw [settle_tg, he]
      simp [counted.state, counted.travel, hs]
    · rw [settle_ju, he]
      exact left.congr counted.state.symm (stepped.kept .ju (by decide)).symm (by rw [counted.travel]) (by rw [counted.travel])
    · rw [settle_hs, he, stepped.head]
      rfl
    · rw [settle_hs, settle_su, he, stepped.held late]
      exact ⟨rfl, rfl⟩
    · obtain ⟨-, depth, flag⟩ := stepped.stepped fresh
      rw [settle_hs, State.flag_settle, he]
      exact ⟨_, _, rfl, rfl, by rw [← trimSum_eq hp]; exact depth, by rw [← trimSum_eq hp]; exact flag⟩
  · obtain ⟨undue, -⟩ := startPendingRetract_of_not_due h
    show Host.Outcome.next (if pendingRetractDue s then _ else s) = _
    rw [undue]
    rfl

end Sys2Proof.Machine

namespace Sys2Proof.Machine

variable {s t : State} {m : Feedback} {w : WeldParams}

/-! ### The feedback that completes a head phase (R103, R104, R105, R112) -/

/-- A message without faults, waiting in the slot with the enable on and p known. -/
structure CleanMessage (m : Feedback) (s : State) : Prop where
  slot : s.dp.slot = some m
  enable : s.dp.enable = true
  place : s.tg.p ≠ none
  free : FaultFree m s

/-- With no fault in the message its completion is all there is to come, whichever is looked at first (log 12). -/
theorem CleanMessage.takeFeedback (h : CleanMessage m s) (b : Bool) :
    takeFeedback b s = feedbackCompletes m s (handOn m s) := by
  simp only [Machine.takeFeedback, h.slot, feedbackFaults_of_faultFree h.free, ite_self]

/-- R100: with the enable on the Z command follows no message. -/
theorem CleanMessage.followZ (h : CleanMessage m s) : followZ m s = s := if_pos h.enable

theorem CleanMessage.slotHas (h : CleanMessage m s) (f : Feedback → Bool) : slotHas f s = f m := by
  simp only [Machine.slotHas, h.slot, Option.any_some]

theorem CleanMessage.feedbackTaken (h : CleanMessage m s) :
    exec .feedbackTaken s = .next (settle (feedbackCompletes m s (handOn m s))) :=
  congrArg (fun x => Host.Outcome.next (settle x)) (h.takeFeedback false)

/-! ### The three rows of a completion (log 2) -/

theorem spinUpEnds_iff (m : Feedback) (s : State) : spinUpEnds m s = true ↔ s.hs.state = .spinningUp ∧ m.atSpeed = true := by
  simp [spinUpEnds]

theorem plungeEnds_iff (m : Feedback) (w : WeldParams) (s : State) :
    plungeEnds m w s = true ↔ s.hs.state = .plunging ∧ s.hs.zCommand = w.depth ∧ w.depth ≤ m.z + 20 := by
  show _ ↔ _ ∧ _ ∧ w.depth ≤ m.z + Config.plungeSlack
  simp only [plungeEnds, Bool.and_eq_true, beq_iff_eq, decide_eq_true_eq, and_assoc]

theorem retractEnds_iff (m : Feedback) (s : State) :
    retractEnds m s = true ↔ s.hs.state = .retracting ∧ s.hs.zCommand = 0 ∧ m.zClear = true := by
  simp only [retractEnds, Bool.and_eq_true, beq_iff_eq, decide_eq_true_eq, and_assoc]

theorem CleanMessage.spinUpComplete (h : CleanMessage m s) : exec .spinUpComplete s
    = .next (if spinUpEnds m s then settle (feedbackCompletes m s (handOn m s)) else s) := by
  show Host.Outcome.next (if Machine.slotHas _ s then settle (Machine.takeFeedback true s) else s) = _
  rw [h.slotHas, h.takeFeedback]

theorem CleanMessage.plungeComplete (h : CleanMessage m s) : exec .plungeComplete s
    = .next (if s.hs.weld.any (fun w => plungeEnds m w s) then settle (feedbackCompletes m s (handOn m s)) else s) := by
  show Host.Outcome.next (if Machine.slotHas _ s then settle (Machine.takeFeedback true s) else s) = _
  rw [h.slotHas, h.takeFeedback, h.followZ]

theorem CleanMessage.retractComplete (h : CleanMessage m s) : exec .retractComplete s
    = .next (if retractEnds m s then settle (feedbackCompletes m s (handOn m s)) else s) := by
  show Host.Outcome.next (if Machine.slotHas _ s then settle (Machine.takeFeedback true s) else s) = _
  rw [h.slotHas, h.takeFeedback, h.followZ]

/-! ### What a completion makes of the head (R103, R104, R105, R112) -/

/-- A message that completes a phase leaves the state `t`, with the Travel Governor `g` and the head `x`. -/
structure PhaseCompleted (m : Feedback) (g : TravelGovernor) (x : HeadSequencer) (s t : State) : Prop where
  kept : Keeps [.tg, .hs, .dp, .pli] s t
  line : LineKeeps s.pli t.pli
  port : t.dp = feedbackHeld m s.dp
  travel : t.tg = g
  head : t.hs = x

theorem phaseCompleted_of_eq {g : TravelGovernor} {x : HeadSequencer} {l : PeerLine} (line : LineKeeps s.pli l)
    (h : t = { s with dp := feedbackHeld m s.dp, tg := g, hs := x, pli := l }) : PhaseCompleted m g x s (settle t) := by
  have kept : Keeps [.tg, .hs, .dp, .pli] s t := by
    rw [h]
    exact fun y hy => by cases y <;> simp [Part.same] at hy ⊢
  refine ⟨(settle_keeps t).via kept (by rfl), LineKeeps.trans ?_ (lineKeeps_settle t), ?_, ?_, ?_⟩
  · rw [h]
    exact line
  · rw [settle_dp, h]
  · rw [settle_tg, h]
  · rw [settle_hs, h]

/-- A completion that leaves the carriage to itself. -/
theorem PhaseCompleted.keeps_travel {x : HeadSequencer} (h : PhaseCompleted m s.tg x s t) : Keeps [.hs, .dp, .pli] s t :=
  h.kept.drop h.travel

section

variable (he : s.dp.enable = true) (hp : s.tg.p ≠ none)
include he hp

/-- A message that is handed on has left the head's state, its parameters and its Z command as they were. -/
theorem handOn_keeps_phase : (handOn m s).hs.state = s.hs.state ∧ (handOn m s).hs.weld = s.hs.weld
    ∧ (handOn m s).hs.zCommand = s.hs.zCommand := by
  rw [handOn_of_enabled he hp]
  exact forceTaken_keeps m s.hs

theorem spinUp_completed (hs : s.hs.state = .spinningUp) (hm : m.atSpeed = true) :
    PhaseCompleted m s.tg { forceTaken m s.hs with state := .plunging, phase := 0 } s
      (settle (feedbackCompletes m s (handOn m s))) := by
  obtain ⟨state, -, -⟩ := handOn_keeps_phase (m := m) he hp
  have completes : feedbackCompletes m s (handOn m s) = enterHead .plunging (handOn m s) := by
    rw [feedbackCompletes, if_neg (by rw [state]; simp), if_pos ((spinUpEnds_iff m _).mpr ⟨state.trans hs, hm⟩)]
  obtain ⟨l, enters, line⟩ := enterHead_eq .plunging (handOn m s)
  rw [handOn_of_enabled he hp] at completes enters line
  rw [handOn_of_enabled he hp]
  exact phaseCompleted_of_eq line (completes.trans enters)

theorem feedbackCompletes_plunge (hs : s.hs.state = .plunging) (hw : s.hs.weld = some w) (hz : s.hs.zCommand = w.depth)
    (hm : w.depth ≤ m.z + 20) : feedbackCompletes m s (handOn m s) = plungeDone w (handOn m s) := by
  obtain ⟨state, weld, depth⟩ := handOn_keeps_phase (m := m) he hp
  have spin : ¬ spinUpEnds m (handOn m s) = true := by simp [spinUpEnds_iff, state, hs]
  have retract : ¬ retractEnds m (handOn m s) = true := by simp [retractEnds_iff, state, hs]
  rw [feedbackCompletes, if_neg (by rw [state]; simp), if_neg spin, if_neg retract, weld, hw]
  exact if_pos ((plungeEnds_iff m w _).mpr ⟨state.trans hs, depth.trans hz, hm⟩)

/-- R104: the plunge's completion with a plunge dwell. -/
theorem plunge_completed_dwells (hs : s.hs.state = .plunging) (hw : s.hs.weld = some w) (hz : s.hs.zCommand = w.depth)
    (hm : w.depth ≤ m.z + 20) (hd : 0 < w.dwell) :
    PhaseCompleted m s.tg { forceTaken m s.hs with state := .dwelling, phase := 0 } s
      (settle (feedbackCompletes m s (handOn m s))) := by
  have dwells : plungeDone w (handOn m s) = enterHead .dwelling (handOn m s) := if_neg (Nat.pos_iff_ne_zero.mp hd)
  obtain ⟨l, enters, line⟩ := enterHead_eq .dwelling (handOn m s)
  rw [feedbackCompletes_plunge he hp hs hw hz hm, dwells]
  rw [handOn_of_enabled he hp] at enters line ⊢
  exact phaseCompleted_of_eq line enters

/-- R105: with a plunge dwell of 0 the head goes through DWELLING at once. -/
theorem plunge_completed_stirs (hs : s.hs.state = .plunging) (hw : s.hs.weld = some w) (hz : s.hs.zCommand = w.depth)
    (hm : w.depth ≤ m.z + 20) (hd : w.dwell = 0) :
    PhaseCompleted m { s.tg with phaseOpen := s.tg.target.isSome, stirCount := 0 }
      { forceTaken m s.hs with state := .stirring, phase := 0, trim := 0 } s
      (settle (feedbackCompletes m s (handOn m s))) := by
  have stirs : plungeDone w (handOn m s) = enterStirring w (enterHead .dwelling (handOn m s)) := if_pos hd
  obtain ⟨l, enters, line⟩ := enterHead_eq .dwelling (handOn m s)
  obtain ⟨l', enters', line'⟩ := enterStirring_eq w (enterHead .dwelling (handOn m s))
  rw [feedbackCompletes_plunge he hp hs hw hz hm, stirs]
  rw [enters] at enters' line' ⊢
  rw [handOn_of_enabled he hp] at enters' line line' ⊢
  refine phaseCompleted_of_eq (line.trans line') (enters'.trans ?_)
  rw [← hz, ← (forceTaken_keeps m s.hs).2.2]

end

/-- R112: with the carriage moving an executor that waits for the head's end goes on waiting. -/
theorem headEnd_of_moving (hx : s.px.state = .awaitHeadEnd) (hv : 0 < s.tg.v) : headEnd s = s := by
  have waits : waitingForRest s = true := by simp [waitingForRest, hx]
  rw [headEnd, if_pos waits, closeIfRest_of_moving (.inl hv)]

theorem EndsRetract.completed (h : EndsRetract m s) (hx : s.px.state = .awaitHeadEnd) (hv : 0 < s.tg.v) :
    PhaseCompleted m s.tg { forceTaken m s.hs with state := .parked, phase := 0, weld := none, retractPending := false } s
      (settle (feedbackCompletes m s (handOn m s))) := by
  obtain ⟨l, completes, line⟩ := h.completes
  exact phaseCompleted_of_eq line (completes.trans (headEnd_of_moving hx hv))

/-- Settles O39. -/
theorem headCompletions : Obligations.HeadCompletions := by
  intro s m hm he hp free
  have clean : CleanMessage m s := ⟨hm, he, hp, free⟩
  have taken := clean.feedbackTaken
  refine ⟨⟨fun hs hc => ?_, fun w hs hw hz hd => ?_, fun hs hz hc hv hx => ?_⟩, fun h => ?_, fun h => ?_, fun h => ?_⟩
  · have completed := spinUp_completed he hp hs hc
    refine ⟨_, ?_, taken, completed.keeps_travel, completed.line, completed.port, completed.head⟩
    rw [clean.spinUpComplete, if_pos ((spinUpEnds_iff m s).mpr ⟨hs, hc⟩)]
  · have row : exec .plungeComplete s = .next (settle (feedbackCompletes m s (handOn m s))) := by
      rw [clean.plungeComplete, hw, Option.any_some, if_pos ((plungeEnds_iff m w s).mpr ⟨hs, hz, hd⟩)]
    rcases Nat.eq_zero_or_pos w.dwell with zero | dwell
    · have completed := plunge_completed_stirs he hp hs hw hz hd zero
      exact ⟨_, row, taken, completed.kept, completed.line, completed.port, fun pos => by omega,
        fun _ => ⟨completed.travel, completed.head⟩⟩
    · have completed := plunge_completed_dwells he hp hs hw hz hd dwell
      exact ⟨_, row, taken, completed.kept, completed.line, completed.port, fun _ => ⟨completed.travel, completed.head⟩,
        fun zero => by omega⟩
  · have completed := EndsRetract.completed ⟨hm, he, hp, hs, hz, hc⟩ hx hv
    refine ⟨_, ?_, taken, completed.keeps_travel, completed.line, completed.port, completed.head⟩
    rw [clean.retractComplete, if_pos ((retractEnds_iff m s).mpr ⟨hs, hz, hc⟩)]
  · rw [clean.spinUpComplete, if_neg]
    rw [spinUpEnds_iff]
    rintro ⟨hs, hc⟩
    simp [hs, hc] at h
  · rw [clean.plungeComplete, if_neg]
    rw [Option.any_eq_true]
    rintro ⟨w, hw, ends⟩
    obtain ⟨hs, hz, hd⟩ := (plungeEnds_iff m w s).mp ends
    rcases h.resolve_left (not_not_intro hs) w hw with h | h
    · exact h hz
    · omega
  · rw [clean.retractComplete, if_neg]
    rw [retractEnds_iff]
    rintro ⟨hs, hz, hc⟩
    simp [hs, hz, hc] at h

end Sys2Proof.Machine

namespace Sys2Proof.Machine

/-! ### The Closed Joint List (R136) -/

/-- R136: the newest id comes after the last three of the others. -/
theorem pushClosed_of_nodup (id : Nat) {ids : List Nat} (h : ids.Nodup) :
    pushClosed id ids = (ids.erase id).drop ((ids.erase id).length - 3) ++ [id] := by
  have others : ids.filter (fun i => i ≠ id) = ids.erase id := by
    rw [h.erase_eq_filter]
    exact List.filter_congr fun i _ => by rw [bne, Bool.beq_eq_decide_eq, decide_not]
  rw [← others]
  show (ids.filter (fun i => i ≠ id) ++ [id]).drop (_ - 4) = _
  rw [List.length_append, List.length_singleton, Nat.add_sub_add_right, List.drop_append_of_le_length (Nat.sub_le _ _)]

/-- R136: with at most three others none is dropped. -/
theorem pushClosed_of_room {id : Nat} {ids : List Nat} (h : ids.Nodup) (room : (ids.erase id).length ≤ 3) :
    pushClosed id ids = ids.erase id ++ [id] := by
  rw [pushClosed_of_nodup id h, Nat.sub_eq_zero_of_le room, List.drop_zero]

/-- Settles O28. -/
theorem closedListPush : Obligations.ClosedListPush := by
  intro id ids short distinct
  obtain ⟨fits, once⟩ := pushClosed_ranged (id := id) distinct
  refine ⟨fits, once, ?_, fun held => ?_, fun new room => ?_, fun new full => ?_⟩
  · rw [pushClosed_of_nodup id distinct, List.getLast?_concat]
  · have shorter := List.length_erase_of_mem held
    exact pushClosed_of_room distinct (by omega)
  · have others := List.erase_of_not_mem new
    rw [pushClosed_of_room distinct (by rw [others]; omega), others]
  · rw [pushClosed_of_nodup id distinct, List.erase_of_not_mem new, full, List.drop_one]

end Sys2Proof.Machine

namespace Sys2Proof.Machine

variable {s : State}

/-! ### The Joint Unit's expiry (R126, R127, R133) -/

theorem ageJoint_of_ready {e : OpenJoint} (h : e.state = .ready) : ageJoint e = { e with age := oneOn e.age } := by
  rw [ageJoint, if_pos h, countUp_eq_oneOn]

theorem ageJoint_of_not_ready {e : OpenJoint} (h : e.state ≠ .ready) : ageJoint e = e := if_neg h

theorem ageJoint_of_passed {e : OpenJoint} (h : Passed s e) : ageJoint e = e := by
  obtain ⟨_, _, pending, _⟩ := h
  exact ageJoint_of_not_ready (by rw [pending]; decide)

/-- The ready ages do not decide which entry's release point is passed. -/
theorem passed_ageJoint_iff (s : State) (e : OpenJoint) : Passed s (ageJoint e) ↔ Passed s e := by
  by_cases h : e.state = .ready
  · rw [ageJoint_of_ready h]
    simp [Passed, h]
  · rw [ageJoint_of_not_ready h]

theorem coolDown_of_not_cooling {a : AwaitedJoint} (h : a.state ≠ .cooling) : coolDown a = a := if_neg h

theorem coolDown_of_more {a : AwaitedJoint} (h : a.state = .cooling) (hr : 1 < a.remaining) :
    coolDown a = { a with remaining := a.remaining - 1 } := by
  rw [coolDown, if_pos h, if_neg (Nat.not_le.mpr hr), ← h]

theorem coolDown_of_last {a : AwaitedJoint} (h : a.state = .cooling) (hr : a.remaining ≤ 1) :
    coolDown a = { a with state := .clear, remaining := 0 } := by
  rw [coolDown, if_pos h, if_pos hr, Nat.sub_eq_zero_of_le hr]

/-- The station with the ready ages of its joints one on (R127). -/
def jointsAged (s : State) : State := s.withJu { s.ju with openList := s.ju.openList.map ageJoint }

theorem jointsAged_passed_iff (s : State) :
    (∃ e ∈ (jointsAged s).ju.openList, Passed (jointsAged s) e) ↔ ∃ e ∈ s.ju.openList, Passed s e := by
  show (∃ e ∈ s.ju.openList.map ageJoint, Passed s e) ↔ _
  simp [passed_ageJoint_iff]

/-- R126: the release test is made of a STIRRING head alone, and finds nothing of another. -/
theorem releaseTest_if_stirring (s : State) :
    ∃ l u, (if s.hs.state = .stirring then releaseTest s else s) = { s with ju := u, pli := l }
      ∧ LineKeeps s.pli l ∧ LeftStirring s u := by
  split
  · next h => exact releaseTest_eq s h
  · next h => exact ⟨s.pli, s.ju, rfl, .refl _, leftStirring_refl fun e _ ⟨stirring, _⟩ => h stirring⟩

/-- R127: the ready ages, the release test, the cool count. -/
theorem jointExpiry_eq (s : State) :
    ∃ l u, jointExpiry s = { s with ju := { u with awaited := s.ju.awaited.map coolDown }, pli := l }
      ∧ LineKeeps s.pli l ∧ LeftStirring (jointsAged s) u := by
  obtain ⟨l1, ages, line1⟩ := setJoints_eq { s.ju with openList := s.ju.openList.map ageJoint } s
  obtain ⟨l2, u, tests, line2, left⟩ := releaseTest_if_stirring ((jointsAged s).withPli l1)
  obtain ⟨l3, cools, line3⟩ := setJoints_eq { u with awaited := u.awaited.map coolDown }
    { s with ju := u, pli := l2 }
  have awaited : u.awaited = s.ju.awaited := left.awaited
  refine ⟨l3, u, ?_, (line1.trans line2).trans line3, left.congr rfl rfl rfl rfl⟩
  rw [← awaited]
  refine Eq.trans ?_ cools
  rw [jointExpiry, ages]
  exact congrArg (fun t : State => setJoints { t.ju with awaited := t.ju.awaited.map coolDown } t) tests

theorem coolingEnds_iff (s : State) :
    coolingEnds s = true ↔ ∃ a, s.ju.awaited = some a ∧ a.state = .cooling ∧ a.remaining ≤ 1 := by
  simp [coolingEnds, Option.any_eq_true]

theorem exec_jointUnitExpiry (s : State) : exec .jointUnitExpiry s = .next (settle (jointExpiry s)) := rfl

theorem exec_coolingRunsOut (s : State) :
    exec .coolingRunsOut s = .next (if coolingEnds s then settle (jointExpiry s) else s) := rfl

/-- Settles O27. -/
theorem jointUnitExpiry : Obligations.JointUnitExpiry := by
  refine ⟨fun s => ?_, fun s h => ?_⟩
  · obtain ⟨l, u, expires, line, left⟩ := jointExpiry_eq s
    have joints : (settle (jointExpiry s)).ju = { u with awaited := s.ju.awaited.map coolDown } := by
      rw [settle_ju, expires]
    have lineKept : LineKeeps s.pli (jointExpiry s).pli := by rw [expires]; exact line
    have aged {i : Nat} {e : OpenJoint} (hi : s.ju.openList[i]? = some e) :
        (jointsAged s).ju.openList[i]? = some (ageJoint e) := by
      show (s.ju.openList.map ageJoint)[i]? = _
      rw [List.getElem?_map, hi, Option.map_some]
    refine ⟨_, exec_jointUnitExpiry s, (settle_keeps _).via (jointExpiry_keeps s) (by rfl),
      lineKept.trans (lineKeeps_settle _), ?_⟩
    rw [joints]
    refine ⟨left.length.trans (List.length_map _), fun i e hi => ⟨fun ready => ?_, fun passed => ?_, fun still kept => ?_⟩,
      fun passed => left.released ((jointsAged_passed_iff s).mpr passed),
      fun notPassed => left.kept (mt (jointsAged_passed_iff s).mp notPassed), left.closedList,
      fun a ha still => ?_, fun a ha cooling more => ?_, fun a ha cooling last => ⟨?_, ?_⟩, fun noJoint => ?_⟩
    · rw [← ageJoint_of_ready ready]
      refine left.others i _ (aged hi) fun ⟨_, _, pending, _⟩ => ?_
      simp [ageJoint_of_ready ready, ready] at pending
    · have released := left.passed i _ (aged hi) ((passed_ageJoint_iff s e).mpr passed)
      rwa [ageJoint_of_passed passed] at released
    · have same := left.others i _ (aged hi) (mt (passed_ageJoint_iff s e).mp kept)
      rwa [ageJoint_of_not_ready still] at same
    · rw [ha, Option.map_some, coolDown_of_not_cooling still]
    · rw [ha, Option.map_some, coolDown_of_more cooling more]
    · rw [exec_coolingRunsOut, if_pos ((coolingEnds_iff s).mpr ⟨a, ha, cooling, last⟩)]
    · rw [ha, Option.map_some, coolDown_of_last cooling last]
    · rw [noJoint, Option.map_none]
  · rw [exec_coolingRunsOut, if_neg]
    rw [coolingEnds_iff]
    rintro ⟨a, ha, cooling, last⟩
    exact absurd (h a ha cooling) (Nat.not_lt.mpr last)

end Sys2Proof.Machine

namespace Sys2Proof.Machine

variable {s t : State} {r : Rank} {c : BeaconContent}

/-! ### What a filing makes of the joints (R129, R132) -/

theorem removedBy_iff (r : Rank) (closed : List Nat) (e : OpenJoint) :
    removedBy r closed e = true ↔ e.partner = r ∧ e.id ∈ closed := by
  simp [removedBy]

/-- The Joint Unit once a beacon's two lists have been given to it (R129, R132). -/
def jointsSettled (r : Rank) (c : BeaconContent) (u : JointUnit) : JointUnit :=
  filingEvaluates r c.openList (removeJoints r c.closedList u)

/-- R129: what is left of the Open Joint List. -/
def openKept (r : Rank) (c : BeaconContent) (u : JointUnit) : List OpenJoint :=
  u.openList.filter (fun e => decide (¬ (e.partner = r ∧ e.id ∈ c.closedList)))

theorem jointsSettled_openList (r : Rank) (c : BeaconContent) (u : JointUnit) :
    (jointsSettled r c u).openList = openKept r c u := by
  refine List.filter_congr fun e _ => ?_
  simp [← removedBy_iff]

theorem jointsSettled_closedList (r : Rank) (c : BeaconContent) (u : JointUnit) :
    (jointsSettled r c u).closedList = u.closedList := rfl

theorem lead_removed_iff (r : Rank) (closed : List Nat) (u : JointUnit) :
    u.openList.any (fun e => removedBy r closed e && isLead u e) = true
      ↔ ∃ e ∈ u.openList, e.partner = r ∧ e.id ∈ closed ∧ u.currentLead = some e.id := by
  simp only [List.any_eq_true, Bool.and_eq_true, removedBy_iff, isLead, beq_iff_eq, and_assoc]

theorem jointsSettled_lead_removed {u : JointUnit}
    (h : ∃ e ∈ u.openList, e.partner = r ∧ e.id ∈ c.closedList ∧ u.currentLead = some e.id) :
    (jointsSettled r c u).currentLead = none :=
  if_pos ((lead_removed_iff r c.closedList u).mpr h)

theorem jointsSettled_lead_kept {u : JointUnit}
    (h : ∀ e ∈ u.openList, e.partner = r → e.id ∈ c.closedList → u.currentLead ≠ some e.id) :
    (jointsSettled r c u).currentLead = u.currentLead := by
  refine if_neg ((lead_removed_iff r c.closedList u).not.mpr ?_)
  rintro ⟨e, he, partner, closed, lead⟩
  exact h e he partner closed lead

theorem jointsSettled_awaited_of_other {u : JointUnit} (h : ∀ a, u.awaited = some a → a.partner ≠ r) :
    (jointsSettled r c u).awaited = u.awaited := by
  rw [jointsSettled, filingEvaluates_of_other (u := removeJoints r c.closedList u) h]
  rfl

theorem jointsSettled_awaited {u : JointUnit} {a : AwaitedJoint} (ha : u.awaited = some a) (hp : a.partner = r) :
    (jointsSettled r c u).awaited = some (evaluateJoint c.openList a) := by
  show u.awaited.map _ = _
  rw [ha, Option.map_some, if_pos hp]

/-- R129: an entry removed is room made. -/
theorem openKept_shorter {u : JointUnit} (h : ∃ e ∈ u.openList, e.partner = r ∧ e.id ∈ c.closedList) :
    (openKept r c u).length < u.openList.length := by
  obtain ⟨e, he, removed⟩ := h
  exact List.length_filter_lt_length_iff_exists.mpr ⟨e, he, by simpa using removed⟩

/-! ### The filing in the beacon's event -/

theorem removes_iff (r : Rank) (c : BeaconContent) (u : JointUnit) :
    u.openList.any (removedBy r c.closedList) = true ↔ ∃ e ∈ u.openList, e.partner = r ∧ e.id ∈ c.closedList := by
  simp only [List.any_eq_true, removedBy_iff]

/-- A filing that makes no room for a held record changes the joints alone. -/
theorem jointsFiled_of_none_held
    (h : s.px.state ≠ .waitSlot ∨ ∀ e ∈ s.ju.openList, ¬ (e.partner = r ∧ e.id ∈ c.closedList)) :
    jointsFiled r c s = setJoints (jointsSettled r c s.ju) s := by
  show (if _ then startHeld (setJoints (jointsSettled r c s.ju) s) else setJoints (jointsSettled r c s.ju) s) = _
  rcases h with h | h
  · have state : (setJoints (jointsSettled r c s.ju) s).px.state ≠ .waitSlot := by
      rw [show (setJoints (jointsSettled r c s.ju) s).px = s.px from setJoints_keeps _ s .px (by decide)]
      exact h
    have rests : startHeld (setJoints (jointsSettled r c s.ju) s) = setJoints (jointsSettled r c s.ju) s := by
      unfold startHeld
      split
      · next held _ => exact absurd held state
      · rfl
    rw [rests, ite_self]
  · rw [if_neg]
    rw [removes_iff]
    rintro ⟨e, he, removed⟩
    exact h e he removed

/-- R129, R82: a filing that makes room for the held record starts it. -/
theorem jointsFiled_of_held {x : PassRecord} (hx : s.px.state = .waitSlot) (hr : s.px.record = some x)
    (h : ∃ e ∈ s.ju.openList, e.partner = r ∧ e.id ∈ c.closedList) :
    jointsFiled r c s = startRecord x (setJoints (jointsSettled r c s.ju) s) := by
  have px : (setJoints (jointsSettled r c s.ju) s).px = s.px := setJoints_keeps _ s .px (by decide)
  refine (if_pos ((removes_iff r c s.ju).mpr h)).trans ?_
  show startHeld (setJoints (jointsSettled r c s.ju) s) = _
  simp only [startHeld, px, hx, hr]

/-- With p where it was and no conflict in the state the event leaves, the check after the joints finds none. -/
theorem neighbourBeacon_of_quiet (h : s.su.lineResetPending = false)
    (place : (jointsFiled r c (fileBeacon r c s)).tg.p = s.tg.p)
    (quiet : ∀ p, s.tg.p = some p → ¬ Conflict (settle (neighbourBeacon r c s)) p) :
    neighbourBeacon r c s = jointsFiled r c (fileBeacon r c s) := by
  have calm := neighbourBeacon_calm r c h
  have joints := jointsFiled_calm r c ((fileBeacon_flagsKeep r c s).lineResetPending.trans h)
  have noConflict : rankConflict (jointsFiled r c (fileBeacon r c s)) = false := by
    refine Bool.eq_false_iff.mpr fun found => ?_
    obtain ⟨p, hp, conflict⟩ := (rankConflict_iff _).mp found
    exact quiet p (place.symm.trans hp)
      ((conflict_congr (calm.nt.trans joints.nt.symm) (calm.ownRank.trans joints.ownRank.symm) p).mpr conflict)
  simp only [neighbourBeacon, checkRankConflict, noConflict, Bool.false_eq_true, if_false, ite_self]

/-- The state `f` once a beacon has been received and filed in `s` (R6, R7). -/
structure Filed (s f : State) : Prop where
  kept : Keeps [.nt, .su, .pli] s f
  flags : FlagsKeep [.stranger] s f
  line : LineKeeps { s.pli with reception := .none } f.pli

theorem fileBeacon_filed (r : Rank) (c : BeaconContent) (s : State) : Filed s (fileBeacon r c (receptionEnds s)) where
  kept := ((withPli_keeps s _).mono (by rfl)).trans (fileBeacon_keeps r c _)
  flags := fileBeacon_flagsKeep r c (receptionEnds s)
  line := lineKeeps_fileBeacon r c (receptionEnds s)

/-- The event of a beacon whose joint work makes the state `y`, the Status Unit and p kept, and whose conflict check finds
none. -/
theorem Filed.event {y : State} {l m : List Part} (h : Filed s (fileBeacon r c (receptionEnds s)))
    (noReset : s.su.lineResetPending = false)
    (quiet : ∀ p, s.tg.p = some p → ¬ Conflict (settle (neighbourBeacon r c (receptionEnds s))) p)
    (joints : jointsFiled r c (fileBeacon r c (receptionEnds s)) = y) (place : y.tg.p = s.tg.p)
    (k : Keeps l (fileBeacon r c (receptionEnds s)) y) (su : y.su = (fileBeacon r c (receptionEnds s)).su)
    (line : LineKeeps (fileBeacon r c (receptionEnds s)).pli y.pli) (hl : partsWithin l m = true)
    (hm : partsWithin [.nt, .su, .pli] m = true) :
    let t := settle (neighbourBeacon r c (receptionEnds s))
    t = settle y ∧ Keeps m s t ∧ FlagsKeep [.stranger] s t ∧ LineKeeps { s.pli with reception := .none } t.pli := by
  have only : neighbourBeacon r c (receptionEnds s) = y :=
    (neighbourBeacon_of_quiet (s := receptionEnds s) noReset (by rw [joints]; exact place) quiet).trans joints
  rw [only]
  refine ⟨rfl, (h.kept.then k hm hl).trans ((settle_keeps y).mono ?_), FlagsKeep.settle ?_,
    (h.line.trans line).trans (lineKeeps_settle y)⟩
  · exact List.all_eq_true.mpr fun x hx => List.all_eq_true.mp hm x (by simp_all)
  · obtain ⟨flags, rest⟩ := h.flags
    exact ⟨fun g hg => by rw [State.flag, su]; exact flags g hg, by rw [su]; exact rest⟩

/-! ### The held record's start (R81, R82, R101) -/

/-- Record `x`, a fresh WELD with a lead part for rank `q` and no trail part, may start from `p`: the station RUNNING, the
head PARKED, the stop line released and the clamps made. -/
structure LeadReady (x : PassRecord) (q : Rank) (p : Nat) (s : State) : Prop where
  kind : x.kind = some .weld
  lead : x.leadId ≠ 0
  noTrail : x.trailId = 0
  role : s.px.role = .fresh
  partner : s.px.leadPartner = some q
  head : s.hs.state = .parked
  station : s.su.station = .running
  place : s.tg.p = some p
  released : s.dp.estop = false
  clamps : s.dp.clamp = true

theorem LeadReady.of_keeps {x : PassRecord} {q : Rank} {p : Nat} (h : LeadReady x q p s)
    (k : Keeps [.nt, .ju, .su, .pli] s t) (station : t.su.station = s.su.station) : LeadReady x q p t := by
  have px : t.px = s.px := k .px (by decide)
  have hs : t.hs = s.hs := k .hs (by decide)
  have tg : t.tg = s.tg := k .tg (by decide)
  have dp : t.dp = s.dp := k .dp (by decide)
  obtain ⟨kind, lead, noTrail, role, partner, head, running, place, released, clamps⟩ := h
  rw [← px] at role partner
  rw [← hs] at head
  rw [← tg] at place
  rw [← dp] at released clamps
  exact ⟨kind, lead, noTrail, role, partner, head, station.trans running, place, released, clamps⟩

/-- R125: the Joint Unit with the entry of the lead record `x` added. -/
def leadAdded (x : PassRecord) (q : Rank) (d : Direction) (u : JointUnit) : JointUnit :=
  { u with openList := u.openList ++ [leadEntry x q d], currentLead := some x.leadId }

/-- The state once record `x` has started from `p`, whatever the line carries (R22, R81, R101, R125). -/
def leadStarted (x : PassRecord) (q : Rank) (p : Nat) (l : PeerLine) (s : State) : State :=
  { s with
    px := { s.px with state := .active }
    tg := targetGiven .weld x (towards p x.endPos s.tg.dir) false s.tg
    hs := headBegun x s.hs
    ju := leadAdded x q (towards x.start x.endPos s.tg.dir) s.ju
    pli := l }

theorem leadStarted_keeps (x : PassRecord) (q : Rank) (p : Nat) (l : PeerLine) (s : State) :
    Keeps [.tg, .px, .hs, .ju, .pli] s (leadStarted x q p l s) :=
  fun y hy => by cases y <;> first | rfl | simp at hy

/-- R81, R101: with room in the Open Joint List the record starts. -/
theorem LeadReady.starts {x : PassRecord} {q : Rank} {p : Nat} (h : LeadReady x q p s) (room : s.ju.openList.length < 4) :
    ∃ l, LineKeeps s.pli l ∧ startRecord x s = leadStarted x q p l s := by
  obtain ⟨kind, hasLead, noTrail, role, partner, head, running, place, released, clamps⟩ := h
  have goes : mustWait x s = false :=
    eq_false_of_ne_true fun waits => Nat.not_le.mpr room ((mustWait_iff kind role hasLead).mp waits)
  obtain ⟨l, line, starts⟩ := startRecord_of_freshWeld kind role goes
  obtain ⟨u, l', weld, line', closed, -, lead, trail, -⟩ := startFreshWeld_of_clamped
    (s := { s with px := { s.px with state := .active }, pli := l }) (r := x) head clamps released running
  obtain ⟨current, openList⟩ := lead q role hasLead partner
  have joints : u = leadAdded x q (towards x.start x.endPos s.tg.dir) s.ju := by
    have awaited : u.awaited = s.ju.awaited := trail.1 noTrail
    cases u
    simp_all [leadAdded]
  have direction : travelDirection x.endPos s = towards p x.endPos s.tg.dir := by
    rw [travelDirection, directionTo_eq_towards, place]
    rfl
  refine ⟨l', line.trans line', ?_⟩
  rw [starts, released, if_neg (by decide), weld, joints, leadStarted, ← direction]
  rfl

/-- R82, R129: the filing that makes room for the record starts it. -/
theorem LeadReady.filing {x : PassRecord} {q : Rank} {p : Nat} (h : LeadReady x q p s) (waits : s.px.state = .waitSlot)
    (held : s.px.record = some x) (full : s.ju.openList.length ≤ 4)
    (removes : ∃ e ∈ s.ju.openList, e.partner = r ∧ e.id ∈ c.closedList) :
    ∃ l, LineKeeps s.pli l ∧ jointsFiled r c s = leadStarted x q p l (s.withJu (jointsSettled r c s.ju)) := by
  obtain ⟨l, sets, line⟩ := setJoints_eq (jointsSettled r c s.ju) s
  have kept := setJoints_keeps (jointsSettled r c s.ju) s
  have ready : LeadReady x q p (setJoints (jointsSettled r c s.ju) s) :=
    h.of_keeps (kept.mono (by rfl)) (congrArg (fun u => u.station) (kept .su (by decide)))
  have room : (setJoints (jointsSettled r c s.ju) s).ju.openList.length < 4 := by
    rw [sets, jointsSettled_openList]
    exact (openKept_shorter removes).trans_le full
  obtain ⟨l', line', starts⟩ := ready.starts room
  rw [jointsFiled_of_held waits held removes, starts]
  rw [sets] at line' ⊢
  exact ⟨l', line.trans line', rfl⟩

/-! ### A beacon settles the joints (R129, R132) -/

theorem setJoints_ju (u : JointUnit) (s : State) : (setJoints u s).ju = u := by
  obtain ⟨l, sets, -⟩ := setJoints_eq u s
  rw [sets]

/-- R129, R132: a filing that starts no held record. -/
theorem beacon_settles (noReset : s.su.lineResetPending = false)
    (noStart : s.px.state ≠ .waitSlot ∨ ∀ e ∈ s.ju.openList, ¬ (e.partner = r ∧ e.id ∈ c.closedList))
    (quiet : ∀ p, s.tg.p = some p → ¬ Conflict (settle (neighbourBeacon r c (receptionEnds s))) p) :
    let t := settle (neighbourBeacon r c (receptionEnds s))
    Keeps [.nt, .ju, .su, .pli] s t ∧ FlagsKeep [.stranger] s t ∧ LineKeeps { s.pli with reception := .none } t.pli
      ∧ t.ju = jointsSettled r c s.ju := by
  have filed := fileBeacon_filed r c s
  have ju := fileBeacon_joints r c (receptionEnds s)
  have px : (fileBeacon r c (receptionEnds s)).px = s.px := filed.kept .px (by decide)
  have set := setJoints_keeps (jointsSettled r c (fileBeacon r c (receptionEnds s)).ju) (fileBeacon r c (receptionEnds s))
  have tg := (set .tg (by decide)).trans (filed.kept .tg (by decide))
  obtain ⟨event, kept, flags, line⟩ := filed.event (m := [.nt, .ju, .su, .pli]) noReset quiet
    (jointsFiled_of_none_held (by rw [px, ju]; exact noStart)) (congrArg (fun g => g.p) tg) set (set .su (by decide))
    (setJoints_calm _ _).line (by rfl) (by rfl)
  refine ⟨kept, flags, line, ?_⟩
  rw [event, settle_ju, setJoints_ju, ju]
  rfl

/-- R82: a filing that makes room starts the held record before the conflict check (log 23). -/
theorem beacon_starts_held {x : PassRecord} {q : Rank} {p : Nat} (noReset : s.su.lineResetPending = false)
    (waits : s.px.state = .waitSlot) (held : s.px.record = some x) (ready : LeadReady x q p s)
    (full : s.ju.openList.length ≤ 4) (removes : ∃ e ∈ s.ju.openList, e.partner = r ∧ e.id ∈ c.closedList)
    (quiet : ¬ Conflict (settle (neighbourBeacon r c (receptionEnds s))) p) :
    let t := settle (neighbourBeacon r c (receptionEnds s))
    Keeps [.nt, .tg, .px, .hs, .ju, .su, .pli] s t ∧ FlagsKeep [.stranger] s t
      ∧ LineKeeps { s.pli with reception := .none } t.pli
      ∧ t.px = { s.px with state := .active } ∧ t.hs = headBegun x s.hs
      ∧ t.tg = targetGiven .weld x (towards p x.endPos s.tg.dir) false s.tg
      ∧ t.ju = leadAdded x q (towards x.start x.endPos s.tg.dir) (jointsSettled r c s.ju) := by
  have filed := fileBeacon_filed r c s
  have ju : (fileBeacon r c (receptionEnds s)).ju = s.ju := filed.kept .ju (by decide)
  have px : (fileBeacon r c (receptionEnds s)).px = s.px := filed.kept .px (by decide)
  have hs : (fileBeacon r c (receptionEnds s)).hs = s.hs := filed.kept .hs (by decide)
  have tg : (fileBeacon r c (receptionEnds s)).tg = s.tg := filed.kept .tg (by decide)
  obtain ⟨l, line, joints⟩ :=
    (ready.of_keeps (filed.kept.mono (by rfl)) (congrArg (fun u => u.station) filed.flags.2)).filing (r := r) (c := c)
      (by rw [px]; exact waits) (by rw [px]; exact held) (by rw [ju]; exact full) (by rw [ju]; exact removes)
  have started := (withJu_keeps (fileBeacon r c (receptionEnds s)) _).then (leadStarted_keeps x q p l
    ((fileBeacon r c (receptionEnds s)).withJu (jointsSettled r c (fileBeacon r c (receptionEnds s)).ju)))
    (n := [.tg, .px, .hs, .ju, .pli]) (by rfl) (by rfl)
  obtain ⟨event, kept, flags, line'⟩ := filed.event (m := [.nt, .tg, .px, .hs, .ju, .su, .pli]) noReset
    (fun p' hp' => by rw [Option.some.inj (hp'.symm.trans ready.place)]; exact quiet) joints
    (congrArg (fun g => g.p) tg) started rfl line (by rfl) (by rfl)
  refine ⟨kept, flags, line', ?_⟩
  rw [event, settle_px, settle_hs, settle_tg, settle_ju, ← px, ← hs, ← tg, ← ju]
  exact ⟨rfl, rfl, rfl, rfl⟩

/-- Settles O24. -/
theorem beaconSettlesJoints : Obligations.BeaconSettlesJoints := by
  intro s r dest payload taken wellFormed other noReset
  have exec := exec_beacon_of_other (dest := dest) taken wellFormed other
  refine ⟨fun noStart => ⟨_, exec, fun quiet => ?_⟩, ?_⟩
  · obtain ⟨kept, flags, line, joints⟩ := beacon_settles noReset noStart quiet
    refine ⟨kept, flags, line, ?_⟩
    rw [joints]
    refine ⟨jointsSettled_openList r _ s.ju, jointsSettled_lead_removed, jointsSettled_lead_kept, rfl,
      jointsSettled_awaited_of_other, fun a ha partner => ?_⟩
    exact ⟨_, jointsSettled_awaited ha partner, evaluateJoint_evaluated _ a⟩
  · intro x q p waits held role kind lead partner noTrail noAwaited head running place released clamps full removes
    refine ⟨_, exec, fun quiet => ?_⟩
    have ready : LeadReady x q p s := ⟨kind, lead, noTrail, role, partner, head, running, place, released, clamps⟩
    obtain ⟨kept, flags, line, px, hs, tg, joints⟩ := beacon_starts_held noReset waits held ready full removes quiet
    have awaited : (jointsSettled r (beaconFields payload).content s.ju).awaited = s.ju.awaited :=
      jointsSettled_awaited_of_other fun a ha => by rw [noAwaited] at ha; cases ha
    refine ⟨kept, flags, line, px, hs, tg, joints.trans ?_⟩
    rw [leadAdded, jointsSettled_openList, awaited, jointsSettled_closedList]
    rfl

end Sys2Proof.Machine

namespace Sys2Proof.Machine

variable {s : State}

/-! ### The transmit queue and the line (R144, R145, R149) -/

theorem winsStart_iff {own : Nat} {rivals : List Byte} : winsStart own rivals = true ↔ ∀ y ∈ rivals, own ≤ y.toNat := by
  simp [winsStart]

theorem winsStart_of_lower {own : Nat} {rivals : List Byte} {y : Byte} (hy : y ∈ rivals) (lower : y.toNat < own) :
    winsStart own rivals = false :=
  Bool.eq_false_iff.mpr (fun wins => absurd (winsStart_iff.mp wins y hy) (Nat.not_le.mpr lower))

theorem queueHead_beacon {b : OwnBeacon} (h : s.pli.beacon = some b) : queueHead s = some (.beacon b) := by
  simp [queueHead, h]

theorem queueHead_reply {x : Reply} {rest : List Reply} (noBeacon : s.pli.beacon = none) (h : s.pli.replies = x :: rest) :
    queueHead s = some (.reply x) := by
  simp [queueHead, noBeacon, h]

theorem queueHead_empty (noBeacon : s.pli.beacon = none) (h : s.pli.replies = []) : queueHead s = none := by
  simp [queueHead, noBeacon, h]

theorem lineStarts_of_sending {rivals : List Byte} (h : s.pli.transmitting ≠ none) : lineStarts rivals s = s := by
  obtain ⟨f, hf⟩ := Option.ne_none_iff_exists'.mp h
  simp [lineStarts, hf]

theorem lineStarts_of_empty {rivals : List Byte} (idle : s.pli.transmitting = none) (h : queueHead s = none) :
    lineStarts rivals s = { s with pli := { s.pli with reception := if rivals = [] then .none else .underWay } } := by
  simp [lineStarts, idle, h, State.withPli]

theorem lineStarts_wins {f : OwnFrame} {rivals : List Byte} (idle : s.pli.transmitting = none) (h : queueHead s = some f)
    (wins : ∀ y ∈ rivals, f.arbitration s.ownRank ≤ y.toNat) : lineStarts rivals s = beginTransmission f s := by
  simp [lineStarts, idle, h, winsStart_iff.mpr wins]

theorem lineStarts_loses {f : OwnFrame} {rivals : List Byte} {y : Byte} (idle : s.pli.transmitting = none)
    (h : queueHead s = some f) (hy : y ∈ rivals) (lower : y.toNat < f.arbitration s.ownRank) :
    lineStarts rivals s = { s with pli := { s.pli with reception := .underWay } } := by
  simp [lineStarts, idle, h, winsStart_of_lower hy lower, State.withPli]

/-- Settles O45: the head of the queue, and whether its field wins, decide what the line starts with. -/
theorem frameStartAndLeave : Obligations.FrameStartAndLeave := by
  intro s
  refine ⟨?_, ?_, ?_, ?_, ?_, ?_, ?_, ?_, ?_⟩
  · intro b rivals idle queued wins
    exact congrArg Host.Outcome.next (lineStarts_wins idle (queueHead_beacon queued) wins)
  · intro x rest rivals idle noBeacon queued wins
    refine (congrArg Host.Outcome.next (lineStarts_wins idle (queueHead_reply noBeacon queued) wins)).trans ?_
    simp [beginTransmission, State.withPli, queued]
  · intro b rivals y idle queued hy lower
    exact congrArg Host.Outcome.next (lineStarts_loses idle (queueHead_beacon queued) hy lower)
  · intro x rest rivals y idle noBeacon queued hy lower
    exact congrArg Host.Outcome.next (lineStarts_loses idle (queueHead_reply noBeacon queued) hy lower)
  · intro rivals idle noBeacon queued
    exact congrArg Host.Outcome.next (lineStarts_of_empty idle (queueHead_empty noBeacon queued))
  · intro rivals sending
    exact congrArg Host.Outcome.next (lineStarts_of_sending sending)
  · intro b sending
    exact congrArg Host.Outcome.next (by simp [lineLeft, sending, State.withPli])
  · intro x sending
    exact congrArg Host.Outcome.next (by simp [lineLeft, sending, State.withPli])
  · intro idle
    exact congrArg Host.Outcome.next (by simp [lineLeft, idle])

end Sys2Proof.Machine

namespace Sys2Proof.Machine

variable {s : State}

/-! ### When an own beacon is due (R151, R153, R154) -/

theorem sendingBeacon_iff : sendingBeacon s = true ↔ ∃ b, s.pli.transmitting = some (.beacon b) := by
  unfold sendingBeacon
  split
  · next b sending => exact iff_of_true rfl ⟨b, sending⟩
  · next other => exact iff_of_false (by simp) (fun ⟨b, sending⟩ => other b sending)

theorem beaconDue_of_free (h : ¬ ∃ b, s.pli.transmitting = some (.beacon b)) :
    beaconDue s = { s with pli := { s.pli with beacon := some (assembleBeacon s), changeWaiting := false } } :=
  if_neg (fun sending => h (sendingBeacon_iff.mp sending))

theorem beaconDue_of_sending (h : ∃ b, s.pli.transmitting = some (.beacon b)) :
    beaconDue s = { s with pli := { s.pli with changeWaiting := true } } :=
  if_pos (sendingBeacon_iff.mpr h)

theorem periodWork_of_reached (h : periodReached s = true) : periodWork s = beaconDue
    { s with pli := { s.pli with periodCount := s.constants.beaconPeriod, periodOverrun := false } } :=
  if_pos h

/-- Settles O32. -/
theorem beaconPeriodAndHoldOff : Obligations.BeaconPeriodAndHoldOff := by
  intro s quiet
  refine ⟨fun due => ?_, fun run short => ?_, fun hold waits free => ?_, fun hold still => ?_, fun off => ?_⟩
  · have reached := (periodReached_iff s).mpr due
    rw [beaconPeriodDue_exec quiet reached, periodWork_of_reached reached]
    exact ⟨fun free => congrArg Host.Outcome.next (beaconDue_of_free free),
      fun sending => congrArg Host.Outcome.next (beaconDue_of_sending sending)⟩
  · exact congrArg Host.Outcome.next (if_neg (Bool.eq_false_iff.mp (periodReached_eq_false run short)))
  · rw [holdOffEnd_exec quiet]
    simp only [holdOffWork, hold, waits, if_true, State.withPli]
    exact congrArg Host.Outcome.next (beaconDue_of_free free)
  · rw [holdOffEnd_exec quiet]
    simp [holdOffWork, hold, still, State.withPli]
  · rw [holdOffEnd_exec quiet]
    simp [holdOffWork, off]

end Sys2Proof.Machine

namespace Sys2Proof.Machine

variable {s : State}

/-! ### Frames that reach no owner (R146, R147) -/

theorem parseFrame_of_short {bs : List Byte} (h : bs.length < 6) : parseFrame bs = none := by
  match bs, h with
  | [], _ => rfl
  | [_], _ => rfl
  | [_, _], _ => rfl
  | [_, _, _], _ => rfl
  | arb :: dst :: kind :: len :: rest, h =>
    have short : rest.length ≠ len.toNat + 2 := by
      simp only [List.length_cons] at h
      omega
    simp [parseFrame, short]

/-- The three things that R146 finds wrong with bytes that have a head. -/
theorem parseFrame_of_bad {arb dst kind len : Byte} {rest : List Byte}
    (h : 131 < len.toNat ∨ rest.length < len.toNat + 2
      ∨ natOfBytes (rest.drop len.toNat) ≠ checkOf (arb :: dst :: kind :: len :: rest.take len.toNat)) :
    parseFrame (arb :: dst :: kind :: len :: rest) = none := by
  have long : Config.longestPayload = 131 := rfl
  simp only [parseFrame, long]
  rcases h with h | h | h
  · rw [if_pos h]
  · rw [if_pos (show rest.length ≠ len.toNat + 2 by omega), ite_self]
  · rw [if_pos h, ite_self, ite_self]

theorem FrameKind.ofCode_code (k : FrameKind) : FrameKind.ofCode k.code = some k := by
  cases k <;> rfl

theorem FrameKind.code_of_ofCode {c : Nat} {k : FrameKind} (h : FrameKind.ofCode c = some k) : k.code = c := by
  simpa using List.find?_some h

theorem FrameKind.code_injective : Function.Injective FrameKind.code := fun j k h =>
  Option.some.inj ((ofCode_code j).symm.trans ((congrArg FrameKind.ofCode h).trans (ofCode_code k)))

/-- What the filters of R147 ask of a frame of kind `k`. -/
structure PassesFilters (own : Rank) (full : Bool) (k : FrameKind) (f : ReceivedFrame) : Prop where
  kind : k.code = f.kindCode
  sender : f.sender ≤ 15
  noReply : k ≠ .loadReply ∧ k ≠ .statusReply
  station : k = .beacon → f.sender < 8
  cell : k.fromCell = true → 8 ≤ f.sender
  dest : k ≠ .beacon → f.dest = own.val ∨ f.dest = 255
  toOne : k.answered = true → f.dest ≠ 255
  length : ∀ n, k.fixedLength = some n → f.payload.length = n
  room : k.answered = true → full = false

theorem passesFilters_of_not_filtered {own : Rank} {full : Bool} {f : ReceivedFrame} (h : filtered own full f = false) :
    ∃ k, PassesFilters own full k f := by
  unfold filtered at h
  split_ifs at h with sender
  split at h
  · cases h
  · next k kind =>
    split_ifs at h with reply beacon cell dest toAll length
    refine ⟨k, FrameKind.code_of_ofCode kind, Nat.le_of_not_lt sender, not_or.mp reply,
      fun hk => Nat.lt_of_not_le fun h8 => beacon ⟨hk, h8⟩, fun hk => Nat.le_of_not_lt fun h8 => cell ⟨hk, h8⟩,
      fun hk => ?_, fun hk all => toAll ⟨hk, all⟩, fun n hn => ?_, fun hk => ?_⟩
    · by_contra no
      exact dest ⟨hk, not_or.mp no⟩
    · simpa [hn] using length
    · simpa [hk] using h

/-- R147: a frame that one of the nine filters discards is filtered. -/
theorem filtered_of_discarded {f : ReceivedFrame} (h : Discarded f s) : filtered s.ownRank (repliesFull s) f = true := by
  by_contra pass
  obtain ⟨k, p⟩ := passesFilters_of_not_filtered (Bool.eq_false_iff.mpr pass)
  have same {j : FrameKind} (hj : f.kindCode = j.code) : j = k := FrameKind.code_injective (hj.symm.trans p.kind.symm)
  cases h with
  | sender high => exact absurd p.sender (Nat.not_le.mpr high)
  | unknown no => exact no k p.kind
  | reply code =>
    rcases code with load | status
    · exact p.noReply.1 (same (j := .loadReply) load).symm
    · exact p.noReply.2 (same (j := .statusReply) status).symm
  | beaconSender code high => exact absurd (p.station (same (j := .beacon) code).symm) (Nat.not_lt.mpr high)
  | cellSender j code cell low => exact absurd (p.cell (same code ▸ cell)) (Nat.not_le.mpr low)
  | destination code own all =>
    exact (p.dest (fun hk => code (p.kind.symm.trans (congrArg FrameKind.code hk)))).elim own all
  | toAll j code answered all => exact p.toOne (same code ▸ answered) all
  | length j n code fixed wrong => exact wrong (p.length n (same code ▸ fixed))
  | noRoom j code answered full =>
    have room : repliesFull s = false := p.room (same code ▸ answered)
    exact absurd (show Config.replyCapacity ≤ repliesHeld s from full) (of_decide_eq_false room)

/-- Bytes that are no frame, were under way at power-up or are discarded by a filter. -/
def NoOwner (bs : List Byte) (s : State) : Prop :=
  s.pli.reception = .notTaken ∨ parseFrame bs = none ∨ ∃ f, parseFrame bs = some f ∧ Discarded f s

theorem frameTaken_of_noOwner {bs : List Byte} (h : NoOwner bs s) (k : FrameKind) : frameTaken k bs s = none := by
  unfold frameTaken
  rcases h with reception | noFrame | ⟨f, frame, discarded⟩
  · rw [if_pos reception]
  · simp [noFrame]
  · simp [frame, filtered_of_discarded discarded]

theorem onFrame_of_noOwner {bs : List Byte} (h : NoOwner bs s) (k : FrameKind) (act : ReceivedFrame → State → State) :
    onFrame k bs act s = { s with pli := { s.pli with reception := .none } } := by
  simp only [onFrame, frameTaken_of_noOwner h k]
  rfl

/-- Every command that brings a frame hands it to the owner of its kind. -/
theorem exec_of_frameCommand {mk : List Byte → Instr} (h : mk ∈ frameCommands) (bs : List Byte) (s : State) :
    ∃ k act, exec (mk bs) s = .next (onFrame k bs act s) := by
  simp only [frameCommands, List.mem_cons, List.not_mem_nil, or_false] at h
  rcases h with rfl | rfl | rfl | rfl | rfl | rfl | rfl | rfl | rfl | rfl | rfl | rfl | rfl | rfl <;> exact ⟨_, _, rfl⟩

/-- Settles O46: what no owner is given leaves every frame command with the end of the reception. -/
theorem filtersDiscard : Obligations.FiltersDiscard := by
  intro bs s
  refine ⟨rfl, parseFrame_of_short, ?_, fun noOwner mk hmk => ?_⟩
  · rintro arb dst kind len rest rfl bad
    exact parseFrame_of_bad bad
  · obtain ⟨k, act, run⟩ := exec_of_frameCommand hmk bs s
    rw [run, onFrame_of_noOwner noOwner]

end Sys2Proof.Machine

namespace Sys2Proof.Machine

/-! ### An own beacon's payload (12.3, 12.6) -/

/-- The ranges of an own beacon's items (R4, R20, R56, R124, R136, R141). -/
structure OwnBeacon.InRange (b : OwnBeacon) : Prop where
  position : ∀ p, b.position = some p → p ≤ 33554431
  speed : b.speed ≤ 2000
  index : b.index ≤ 511
  openRoom : b.openList.length ≤ 4
  openNodup : (b.openList.map (fun e => e.id)).Nodup
  openItems : ∀ e ∈ b.openList, 1 ≤ e.id ∧ e.id ≤ 255 ∧ e.age ≤ 65535
  closedRoom : b.closedList.length ≤ 4
  closedNodup : b.closedList.Nodup
  closedItems : ∀ i ∈ b.closedList, 1 ≤ i ∧ i ≤ 255

/-- The bits of a beacon's payload: position known, direction, summary, completion pending. -/
def OwnBeacon.bits (b : OwnBeacon) : Nat :=
  bitNat b.position.isSome + 2 * b.direction.code + 4 * bitNat b.summary + 8 * bitNat b.completionPending

/-- One Open Joint List entry as a beacon carries it. -/
def JointReport.bytes (e : JointReport) : List Byte :=
  bytesOfNat 1 e.id ++ bytesOfNat 1 e.state.code ++ bytesOfNat 2 e.age

/-- The Closed Joint List as a beacon carries it. -/
def closedBytes (ids : List Nat) : List Byte :=
  (ids.map (fun i => bytesOfNat 1 i)).flatten

/-- The eighteen bytes before the lists. -/
def OwnBeacon.fixedBytes (b : OwnBeacon) : List Byte :=
  bytesOfNat 2 b.station.code ++ bytesOfNat 2 b.executor.code ++ bytesOfNat 2 b.head.code ++ bytesOfNat 2 b.bits
    ++ bytesOfNat 4 (b.position.getD 0) ++ bytesOfNat 2 b.speed ++ bytesOfNat 2 b.index
    ++ bytesOfNat 1 b.openList.length ++ bytesOfNat 1 b.closedList.length

theorem OwnBeacon.payload_eq (b : OwnBeacon) :
    b.payload = b.fixedBytes ++ ((b.openList.map JointReport.bytes).flatten ++ closedBytes b.closedList) := by
  rw [← List.append_assoc]
  rfl

theorem OwnBeacon.length_fixedBytes (b : OwnBeacon) : b.fixedBytes.length = 18 := by simp [fixedBytes]

theorem JointReport.length_bytes (e : JointReport) : e.bytes.length = 4 := by simp [bytes]

theorem length_openBytes (l : List JointReport) : (l.map JointReport.bytes).flatten.length = 4 * l.length := by
  induction l with
  | nil => rfl
  | cons e l ih =>
    rw [List.map_cons, List.flatten_cons, List.length_append, ih, e.length_bytes, List.length_cons]
    omega

theorem closedBytes_cons (i : Nat) (ids : List Nat) : closedBytes (i :: ids) = BitVec.ofNat 8 i :: closedBytes ids := rfl

theorem length_closedBytes (ids : List Nat) : (closedBytes ids).length = ids.length := by
  induction ids with
  | nil => rfl
  | cons i ids ih => rw [closedBytes_cons, List.length_cons, List.length_cons, ih]

theorem OwnBeacon.length_payload (b : OwnBeacon) :
    b.payload.length = 18 + 4 * b.openList.length + b.closedList.length := by
  rw [payload_eq, List.length_append, List.length_append, length_fixedBytes, length_openBytes, length_closedBytes]
  omega

theorem StationState.code_le (x : StationState) : x.code ≤ 3 := by cases x <;> decide
theorem ExecutorState.code_le (x : ExecutorState) : x.code ≤ 6 := by cases x <;> decide
theorem HeadState.code_le (x : HeadState) : x.code ≤ 6 := by cases x <;> decide
theorem OpenJointState.code_le (x : OpenJointState) : x.code ≤ 2 := by cases x <;> decide

theorem OpenJointState.ofCode_code (x : OpenJointState) : OpenJointState.ofCode x.code = some x := by cases x <;> rfl

theorem OwnBeacon.bits_eq (b : OwnBeacon) :
    b.bits = (if b.position = none then 0 else 1) + (if b.direction = .down then 2 else 0)
      + (if b.summary then 4 else 0) + (if b.completionPending then 8 else 0) := by
  unfold bits
  cases b.position <;> cases b.direction <;> cases b.summary <;> cases b.completionPending <;> rfl

theorem OwnBeacon.bits_lt (b : OwnBeacon) : b.bits < 16 := by
  rw [bits_eq]
  split_ifs <;> omega

theorem bitOf_fourBits : ∀ p d s c : Bool, bitOf (bitNat p + 2 * bitNat d + 4 * bitNat s + 8 * bitNat c) 0 = p
    ∧ bitOf (bitNat p + 2 * bitNat d + 4 * bitNat s + 8 * bitNat c) 1 = d := by
  decide

theorem Direction.code_eq_bitNat (d : Direction) : d.code = bitNat (decide (d = .down)) := by cases d <;> rfl

theorem OwnBeacon.bitOf_bits (b : OwnBeacon) :
    bitOf b.bits 0 = b.position.isSome ∧ bitOf b.bits 1 = decide (b.direction = .down) := by
  rw [bits, Direction.code_eq_bitNat]
  exact bitOf_fourBits _ _ _ _

theorem OwnBeacon.InRange.position_le {b : OwnBeacon} (h : b.InRange) : b.position.getD 0 ≤ 33554431 := by
  cases hp : b.position with
  | none => exact Nat.zero_le _
  | some p => exact h.position p hp

/-- The joints of a payload are read as they were written. -/
theorem openFields_openBytes {l : List JointReport} (h : ∀ e ∈ l, e.id ≤ 255 ∧ e.age ≤ 65535) (rest : List Byte) :
    openFields l.length ((l.map JointReport.bytes).flatten ++ rest) = l.map (fun e => (e.id, e.state.code, e.age)) := by
  induction l with
  | nil => rfl
  | cons e l ih =>
    obtain ⟨⟨id, age⟩, others⟩ := List.forall_mem_cons.mp h
    have hid : e.id < 256 ^ 1 := by omega
    have hage : e.age < 256 ^ 2 := by omega
    have hcode : e.state.code < 256 ^ 1 := Nat.lt_of_le_of_lt e.state.code_le (by decide)
    rw [List.map_cons, List.flatten_cons, List.append_assoc, List.length_cons, openFields,
      List.drop_left' e.length_bytes, ih others, List.map_cons]
    simp only [JointReport.bytes, List.append_assoc, fieldAt_bytesOfNat_skip, fieldAt_bytesOfNat_append, Nat.reduceSub,
      Nat.reduceLeDiff, Nat.le_refl, hid, hcode, hage]

theorem closedBytes_toNat {ids : List Nat} (h : ∀ i ∈ ids, i ≤ 255) : (closedBytes ids).map (fun b => b.toNat) = ids := by
  induction ids with
  | nil => rfl
  | cons i ids ih =>
    obtain ⟨hi, others⟩ := List.forall_mem_cons.mp h
    rw [closedBytes_cons, List.map_cons, ih others, toNat_ofNat_of_lt (by omega)]

/-- The items of an own beacon before its lists stand at their places (12.3). -/
theorem OwnBeacon.fieldAt_payload {b : OwnBeacon} (h : b.InRange) :
    fieldAt b.payload 0 2 = b.station.code ∧ fieldAt b.payload 2 2 = b.executor.code ∧ fieldAt b.payload 4 2 = b.head.code
    ∧ fieldAt b.payload 6 2 = b.bits ∧ fieldAt b.payload 8 4 = b.position.getD 0 ∧ fieldAt b.payload 12 2 = b.speed
    ∧ fieldAt b.payload 14 2 = b.index ∧ fieldAt b.payload 16 1 = b.openList.length
    ∧ fieldAt b.payload 17 1 = b.closedList.length := by
  have station : b.station.code < 256 ^ 2 := Nat.lt_of_le_of_lt b.station.code_le (by decide)
  have executor : b.executor.code < 256 ^ 2 := Nat.lt_of_le_of_lt b.executor.code_le (by decide)
  have head : b.head.code < 256 ^ 2 := Nat.lt_of_le_of_lt b.head.code_le (by decide)
  have bits : b.bits < 256 ^ 2 := Nat.lt_trans b.bits_lt (by decide)
  have position : b.position.getD 0 < 256 ^ 4 := Nat.lt_of_le_of_lt h.position_le (by decide)
  have speed : b.speed < 256 ^ 2 := Nat.lt_of_le_of_lt h.speed (by decide)
  have index : b.index < 256 ^ 2 := Nat.lt_of_le_of_lt h.index (by decide)
  have openCount : b.openList.length < 256 ^ 1 := Nat.lt_of_le_of_lt h.openRoom (by decide)
  have closedCount : b.closedList.length < 256 ^ 1 := Nat.lt_of_le_of_lt h.closedRoom (by decide)
  simp only [payload_eq, fixedBytes, List.append_assoc, fieldAt_bytesOfNat_skip, fieldAt_bytesOfNat_append, Nat.reduceSub,
    Nat.reduceLeDiff, Nat.le_refl, station, executor, head, bits, position, speed, index, openCount, closedCount, and_self]

/-- The joints of an own beacon stand from byte 18 on, the closed ids after them (12.3). -/
theorem OwnBeacon.lists_payload {b : OwnBeacon} (h : b.InRange) :
    openFields b.openList.length (b.payload.drop 18) = b.openList.map (fun e => (e.id, e.state.code, e.age))
    ∧ ((b.payload.drop (18 + 4 * b.openList.length)).take b.closedList.length).map (fun x => x.toNat) = b.closedList := by
  constructor
  · rw [payload_eq, List.drop_left' b.length_fixedBytes]
    exact openFields_openBytes (fun e he => (h.openItems e he).2) _
  · rw [← List.drop_drop, payload_eq, List.drop_left' b.length_fixedBytes, List.drop_left' (length_openBytes _),
      ← length_closedBytes, List.take_length]
    exact closedBytes_toNat (fun i hi => (h.closedItems i hi).2)

/-- An own beacon's payload as it is read (12.3). -/
theorem OwnBeacon.beaconFields_payload {b : OwnBeacon} (h : b.InRange) : beaconFields b.payload =
    { station := b.station.code, executor := b.executor.code, head := b.head.code, bits := b.bits
      position := b.position.getD 0, speed := b.speed, index := b.index, openCount := b.openList.length
      closedCount := b.closedList.length, openList := b.openList.map (fun e => (e.id, e.state.code, e.age))
      closedList := b.closedList, length := 18 + 4 * b.openList.length + b.closedList.length } := by
  obtain ⟨station, executor, head, bits, position, speed, index, openCount, closedCount⟩ := fieldAt_payload h
  obtain ⟨joints, closed⟩ := lists_payload h
  simp only [beaconFields, station, executor, head, bits, position, speed, index, openCount, closedCount, joints, closed,
    length_payload]

/-- R5: an own beacon is well formed. -/
theorem OwnBeacon.payload_wellFormed {b : OwnBeacon} (h : b.InRange) : (beaconFields b.payload).wellFormed = true := by
  have positions : b.position.getD 0 ≤ Config.railTop := h.position_le
  have index : b.index < Config.recordCount := Nat.lt_succ_of_le h.index
  have openItems : ∀ e ∈ b.openList, e.id ≠ 0 ∧ e.state.code ≤ 2 := fun e he =>
    ⟨Nat.one_le_iff_ne_zero.mp (h.openItems e he).1, e.state.code_le⟩
  have closedItems : ∀ i ∈ b.closedList, i ≠ 0 := fun i hi => Nat.one_le_iff_ne_zero.mp (h.closedItems i hi).1
  have openRoom : b.openList.length ≤ Config.jointCapacity := h.openRoom
  have closedRoom : b.closedList.length ≤ Config.jointCapacity := h.closedRoom
  have speed : b.speed ≤ Config.speedTop := h.speed
  have eighteen : 18 ≤ 18 + 4 * b.openList.length + b.closedList.length := by omega
  rw [beaconFields_payload h]
  simp only [BeaconFields.wellFormed, Bool.and_eq_true, decide_eq_true_eq, Bool.or_eq_true, List.all_map, List.all_eq_true,
    List.map_map, Function.comp_def]
  exact ⟨⟨⟨⟨⟨⟨⟨⟨⟨⟨⟨⟨⟨eighteen, trivial⟩, b.station.code_le⟩, b.executor.code_le⟩, b.head.code_le⟩, .inr positions⟩, speed⟩,
    index⟩, openRoom⟩, closedRoom⟩, openItems⟩, closedItems⟩, h.openNodup⟩, h.closedNodup⟩

/-- R4: the content a receiver keeps of an own beacon. -/
theorem OwnBeacon.content_payload {b : OwnBeacon} (h : b.InRange) : (beaconFields b.payload).content =
    { position := b.position, direction := b.direction, speed := b.speed, openList := b.openList
      closedList := b.closedList } := by
  have position : (if b.position.isSome = true then some (b.position.getD 0) else none) = b.position := by
    cases b.position <;> rfl
  have direction : (if decide (b.direction = .down) = true then Direction.down else .up) = b.direction := by
    cases b.direction <;> rfl
  have joints : (b.openList.map (fun e => (e.id, e.state.code, e.age))).filterMap
      (fun e => (OpenJointState.ofCode e.2.1).map (fun st => (⟨e.1, st, e.2.2⟩ : JointReport))) = b.openList := by
    simp [List.filterMap_map, OpenJointState.ofCode_code]
  rw [beaconFields_payload h]
  simp only [BeaconFields.content, b.bitOf_bits.1, b.bitOf_bits.2, position, direction, joints]

/-! ### Own frames as sent (R142, R143, R150) -/

theorem OwnBeacon.parseFrame_bytes {b : OwnBeacon} (own : Rank) (h : b.InRange) :
    parseFrame ((OwnFrame.beacon b).bytes own)
      = some { cls := 2, sender := own.val, dest := 255, kindCode := 16, payload := b.payload } := by
  have long : b.payload.length ≤ Config.longestPayload := by
    have openRoom := h.openRoom
    have closedRoom := h.closedRoom
    show _ ≤ 131
    rw [length_payload]
    omega
  exact parseFrame_frameBytes (by decide) (Nat.lt_trans own.isLt (by decide)) (by decide) (by decide) long

theorem parseFrame_loadReply (own : Rank) {dest : Nat} {payload : List Byte} (hd : dest < 256) (hp : payload.length ≤ 131) :
    parseFrame ((OwnFrame.reply (.load dest payload)).bytes own)
      = some { cls := 3, sender := own.val, dest := dest, kindCode := 48, payload := payload } :=
  parseFrame_frameBytes (by decide) (Nat.lt_trans own.isLt (by decide)) hd (by decide) hp

theorem parseFrame_statusReply (own : Rank) {dest : Nat} {payload : List Byte} (hd : dest < 256)
    (hp : payload.length ≤ 131) : parseFrame ((OwnFrame.reply (.status dest payload)).bytes own)
      = some { cls := 3, sender := own.val, dest := dest, kindCode := 49, payload := payload } :=
  parseFrame_frameBytes (by decide) (Nat.lt_trans own.isLt (by decide)) hd (by decide) hp

/-- Settles O12: a beacon's payload is read as the record it was assembled from, and a frame's bytes as the frame. -/
theorem beaconReadBack : Obligations.BeaconReadBack := by
  refine ⟨fun own b position speed index openRoom openNodup openItems closedRoom closedNodup closedItems => ?_, rfl, rfl, rfl,
    fun own dest payload hd hp => ⟨parseFrame_loadReply own hd hp, parseFrame_statusReply own hd hp⟩⟩
  have h : b.InRange :=
    ⟨position, speed, index, openRoom, openNodup, openItems, closedRoom, closedNodup, closedItems⟩
  obtain ⟨station, executor, head, bits, place, v, record, -⟩ := OwnBeacon.fieldAt_payload h
  exact ⟨OwnBeacon.parseFrame_bytes own h, (wellFormed_iff b.payload).mp (OwnBeacon.payload_wellFormed h),
    OwnBeacon.content_payload h, station, executor, head, bits.trans b.bits_eq, place, v, record⟩

end Sys2Proof.Machine

namespace Sys2Proof.Machine

variable {s t u : State}

/-! ### Reported changes are noted (R154, log 10)

An operation may change what is reported only with a change noted, and none takes the note back: the end of the event finds
it. -/

/-- A change is noted in `t`; or what is reported, and the note, are as in `s`. -/
def Noted (s t : State) : Prop :=
  t.pli.changeNoted = true ∨ (reportedOf t = reportedOf s ∧ t.pli.changeNoted = s.pli.changeNoted)

namespace Noted

theorem refl (s : State) : Noted s s := .inr ⟨rfl, rfl⟩

/-- An operation that touches nothing reported. -/
theorem same (h : reportedOf t = reportedOf s) (k : t.pli.changeNoted = s.pli.changeNoted) : Noted s t := .inr ⟨h, k⟩

/-- An operation after another. -/
theorem after (k : Noted t u) (h : Noted s t) : Noted s u := by
  rcases k with noted | ⟨reported, mark⟩
  · exact .inl noted
  · exact h.imp mark.trans (fun ⟨r, m⟩ => ⟨reported.trans r, mark.trans m⟩)

theorem ite {p : Prop} [Decidable p] (h : Noted s t) (k : Noted s u) : Noted s (if p then t else u) := by
  split
  · exact h
  · exact k

end Noted

theorem noteChange_noted (s t : State) : Noted s (noteChange t) := .inl rfl

theorem setStation_noted (x : StationState) (s : State) : Noted s (setStation x s) := (Noted.refl s).ite (noteChange_noted s _)

theorem setExecutor_noted (x : ExecutorState) (s : State) : Noted s (setExecutor x s) := (Noted.refl s).ite (noteChange_noted s _)

theorem setHead_noted (x : HeadState) (s : State) : Noted s (setHead x s) := (Noted.refl s).ite (noteChange_noted s _)

theorem setIndex_noted (i : Nat) (s : State) : Noted s (setIndex i s) := (Noted.refl s).ite (noteChange_noted s _)

theorem setCompletionPending_noted (b : Bool) (s : State) : Noted s (setCompletionPending b s) :=
  (Noted.refl s).ite (noteChange_noted s _)

theorem setJoints_noted (j : JointUnit) (s : State) : Noted s (setJoints j s) := by
  unfold setJoints
  split
  · next reported => exact .same (by rw [reportedOf, reportedOf, State.withJu, reported]) rfl
  · exact noteChange_noted s _

/-- The summary goes from clear to set, or it is set before and after (R188). -/
theorem raise_noted (f : AttentionFlag) (s : State) : Noted s (raise f s) := by
  unfold raise
  split
  · exact noteChange_noted s _
  · next set =>
    have still : s.su.flags ||| (1#14 <<< f.bit) ≠ 0 := fun h => set (BitVec.or_eq_zero_iff.mp h).1
    exact .same (by simp only [reportedOf, State.withSu, ne_eq, set, still]) rfl

theorem raiseIf_noted (b : Bool) (f : AttentionFlag) (s : State) : Noted s (raiseIf b f s) := (raise_noted f s).ite (.refl s)

theorem clearFlags_noted (s : State) : Noted s (clearFlags s) := (Noted.refl s).ite (noteChange_noted s _)

theorem beaconDue_noted (s : State) : Noted s (beaconDue s) := Noted.ite (.same rfl rfl) (.same rfl rfl)

/-! ### Table, joints and head -/

theorem ageTable_noted (s : State) : Noted s (ageTable s) := (raiseIf_noted _ _ _).after (.same rfl rfl)

theorem fileBeacon_noted (r : Rank) (c : BeaconContent) (s : State) : Noted s (fileBeacon r c s) :=
  (raiseIf_noted _ _ _).after (.same rfl rfl)

theorem applyTravel_noted (r : TravelResult) (s : State) : Noted s (applyTravel r s) :=
  (raiseIf_noted _ _ _).after (.same rfl rfl)

theorem releaseTest_noted (s : State) : Noted s (releaseTest s) := by
  unfold releaseTest
  split
  · exact .refl s
  · exact (setJoints_noted _ s).ite (.refl s)

theorem jointExpiry_noted (s : State) : Noted s (jointExpiry s) :=
  (setJoints_noted _ _).after (((releaseTest_noted _).after (setJoints_noted _ s)).ite (setJoints_noted _ s))

theorem closeJoints_noted (k : EndKind) (s : State) : Noted s (closeJoints k s) :=
  (raiseIf_noted _ _ _).after (setJoints_noted _ s)

theorem enterHead_noted (x : HeadState) (s : State) : Noted s (enterHead x s) :=
  Noted.after (.same rfl rfl) (setHead_noted x s)

theorem leaveStirring_noted (s : State) : Noted s (leaveStirring s) :=
  Noted.ite (Noted.after (.same rfl rfl) (releaseTest_noted s)) (.refl s)

theorem enterRetracting_noted (s : State) : Noted s (enterRetracting s) :=
  Noted.after (.same rfl rfl) ((enterHead_noted _ _).after (leaveStirring_noted s))

theorem faultRetract_noted (s : State) : Noted s (faultRetract s) :=
  Noted.ite (Noted.after (.same rfl rfl) (enterRetracting_noted s)) (.refl s)

theorem normalRetract_noted (s : State) : Noted s (normalRetract s) :=
  Noted.ite (.same rfl rfl) ((enterRetracting_noted s).ite (.refl s))

theorem enterHalted_noted (s : State) : Noted s (enterHalted s) := Noted.after (.same rfl rfl) (enterHead_noted .halted s)

theorem enterParked_noted (s : State) : Noted s (enterParked s) := Noted.after (.same rfl rfl) (enterHead_noted .parked s)

theorem enterStirring_noted (w : WeldParams) (s : State) : Noted s (enterStirring w s) :=
  Noted.after (.same rfl rfl) (enterHead_noted .stirring s)

theorem plungeDone_noted (w : WeldParams) (s : State) : Noted s (plungeDone w s) :=
  ((enterStirring_noted w _).after (enterHead_noted _ s)).ite (enterHead_noted _ s)

theorem spinUp_noted (w : WeldParams) (s : State) : Noted s (spinUp w s) :=
  Noted.after (.same rfl rfl) (enterHead_noted .spinningUp s)

theorem continueWeld_noted (a b : Nat) (c : Bool) (s : State) : Noted s (continueWeld a b c s) := by
  unfold continueWeld
  split
  · exact .same rfl rfl
  · exact .refl s

theorem retractOnReport_noted (s : State) : Noted s (retractOnReport s) := (enterRetracting_noted s).ite (.refl s)

theorem headPathEnd_noted (s : State) : Noted s (headPathEnd s) := by
  unfold headPathEnd
  split
  · exact (Noted.refl s).ite (retractOnReport_noted s)
  · exact retractOnReport_noted s

theorem headRamps_noted (s : State) : Noted s (headRamps s) := by
  have force (w : WeldParams) : Noted s (forceStep w s) := (raiseIf_noted _ _ _).after (.same rfl rfl)
  unfold headRamps
  split
  · exact .same rfl rfl
  · exact (force _).ite (.refl s)
  · exact .same rfl rfl
  · exact .refl s

theorem endDwell_noted (s : State) : Noted s (endDwell s) := by
  unfold endDwell
  split
  · exact enterStirring_noted _ s
  · exact .refl s

theorem startPendingRetract_noted (s : State) : Noted s (startPendingRetract s) := (enterRetracting_noted s).ite (.refl s)

/-! ### Resets and the chain's end -/

theorem lineResetEffect_noted (s : State) : Noted s (lineResetEffect s) := noteChange_noted s _

theorem heldResetEffect_noted (s : State) : Noted s (heldResetEffect s) := (lineResetEffect_noted s).ite (.refl s)

theorem jobCleared_noted (s : State) : Noted s (jobCleared s) := Noted.after (.same rfl rfl) (setJoints_noted {} s)

theorem endChain_noted (e : Decision) (s : State) : Noted s (endChain e s) := by
  have pending (x : PassExecutor) (n : Nat) (h : reportedOf (s.withPx x) = reportedOf s) :
      Noted s (setCompletionPending true ((s.withPx x).withFree n)) :=
    (setCompletionPending_noted _ _).after (.same h rfl)
  have moved (x : ExecutorState) (y : StationState) (z : State) (h : Noted s z) :
      Noted s (setStation y (setExecutor x z)) :=
    (setStation_noted _ _).after ((setExecutor_noted _ _).after h)
  exact Noted.ite ((lineResetEffect_noted _).after (pending _ _ rfl))
    (Noted.ite (moved _ _ _ (pending _ _ rfl)) (moved _ _ _ (pending _ _ rfl)))

theorem closeStopping_noted (e : Decision) (s : State) : Noted s (closeStopping e s) :=
  (endChain_noted e _).after (Noted.after (.same rfl rfl) (closeJoints_noted e.kind s))

/-! ### Fetch and start -/

theorem notifyFetch_noted (r : PassRecord) (s : State) : Noted s (notifyFetch r s) :=
  Noted.ite (Noted.after (.same rfl rfl) (raise_noted .notify s)) (.refl s)

theorem takeIndex_noted (i : Nat) (s : State) : Noted s (takeIndex i s) :=
  (notifyFetch_noted _ _).after (Noted.after (.same rfl rfl) (setIndex_noted i s))

theorem closeRest_noted {e : Decision} (h : Noted s t) : Noted s (if atRest t then closeStopping e t else t) :=
  ((closeStopping_noted e t).after h).ite h

theorem programCheck_noted (d : Detail) (s : State) : Noted s (programCheck d s) := by
  have checked : Noted s (raise .programCheck (s.withPx { s.px with passed := false })) :=
    (raise_noted _ _).after (.same rfl rfl)
  unfold programCheck
  dsimp only
  split
  · exact (closeStopping_noted _ _).after checked
  · exact closeRest_noted ((normalRetract_noted _).after ((setExecutor_noted _ _).after (Noted.after (.same rfl rfl) checked)))

theorem startFreshWeld_noted (r : PassRecord) (s : State) : Noted s (startFreshWeld r s) := by
  unfold startFreshWeld
  extract_lets d x y
  have joints : Noted s y := (setJoints_noted _ x).after (.same rfl rfl)
  exact Noted.ite ((spinUp_noted _ _).after joints)
    (Noted.ite ((closeStopping_noted _ _).after ((raise_noted .fault y).after joints)) joints)

theorem startContinuation_noted (r : PassRecord) (s : State) : Noted s (startContinuation r s) :=
  (continueWeld_noted _ _ _ _).after ((setJoints_noted _ _).after (.same rfl rfl))

theorem handRecordOn_noted (r : PassRecord) (s : State) : Noted s (handRecordOn r s) := by
  have active := setExecutor_noted .active s
  unfold handRecordOn
  dsimp only
  refine (closeStopping_noted _ s).ite ?_
  split
  · exact Noted.after (.same rfl rfl) active
  · exact Noted.after (.same rfl rfl) active
  · exact Noted.after (.same rfl rfl) active
  · split
    · exact (startFreshWeld_noted r _).after active
    · exact (startContinuation_noted r _).after active
  · exact active

theorem startRecord_noted (r : PassRecord) (s : State) : Noted s (startRecord r s) :=
  (setExecutor_noted _ s).ite (handRecordOn_noted r s)

theorem judgeAndStart_noted (k : RecordKind) (r : PassRecord) (s : State) : Noted s (judgeAndStart k r s) := by
  unfold judgeAndStart
  split
  · exact programCheck_noted _ s
  · exact (startRecord_noted r _).after (.same rfl rfl)

theorem followBranch_noted (r : PassRecord) (s : State) : Noted s (followBranch r s) := by
  have read (x : PassRecord) : Noted s (notifyFetch x ((setIndex r.rate s).withPx
      { (setIndex r.rate s).px with record := some x })) :=
    (notifyFetch_noted _ _).after (Noted.after (.same rfl rfl) (setIndex_noted r.rate s))
  unfold followBranch
  dsimp only
  refine (programCheck_noted _ s).ite ?_
  split
  · exact (programCheck_noted _ _).after (read _)
  · exact (programCheck_noted _ _).after (read _)
  · exact (judgeAndStart_noted _ _ _).after (read _)

theorem completeFetch_noted (s : State) : Noted s (completeFetch s) := by
  unfold completeFetch
  dsimp only
  split
  · exact (programCheck_noted _ _).after (.same rfl rfl)
  · split
    · exact (programCheck_noted _ _).after (.same rfl rfl)
    · exact Noted.ite ((programCheck_noted _ _).after (.same rfl rfl)) ((followBranch_noted _ _).after (.same rfl rfl))
    · exact (judgeAndStart_noted _ _ _).after (.same rfl rfl)

theorem beginFetch_noted (role : Role) (i : Nat) (s : State) : Noted s (beginFetch role i s) := by
  have fetching : Noted s (setExecutor .fetching (s.withPx { s.px with role := role, decided := none })) :=
    (setExecutor_noted _ _).after (.same rfl rfl)
  exact Noted.ite ((programCheck_noted _ _).after (Noted.after (.same rfl rfl) fetching))
    ((takeIndex_noted i _).after fetching)

/-! ### Closes and causes -/

theorem nextRecord_noted (k : EndKind) (s : State) :
    Noted s ((withdrawTarget (closeJoints k s)).withPx { s.px with firstRecord := false }) := by
  have px : (closeJoints k s).px = s.px := closeJoints_keeps k s .px (by decide)
  rw [← px]
  exact Noted.after (.same rfl rfl) (closeJoints_noted k s)

theorem closeRecord_noted (s : State) : Noted s (closeRecord s) := by
  unfold closeRecord
  split
  · exact .refl s
  · split
    · exact closeStopping_noted _ s
    · exact (beginFetch_noted _ _ _).after (nextRecord_noted _ s)

theorem closeIfRest_noted (s : State) : Noted s (closeIfRest s) := (closeRecord_noted s).ite (.refl s)

/-- An end is decided, and the executor waits for rest in the state `x`. -/
theorem waitsForRest_noted (x : ExecutorState) (e : Decision) (s : State) :
    Noted s (closeIfRest (setExecutor x (decideEnd e s))) :=
  (closeIfRest_noted _).after ((setExecutor_noted x _).after (.same rfl rfl))

theorem awaitEnd_noted (e : Decision) (s : State) : Noted s (awaitEnd e s) := waitsForRest_noted .awaitHeadEnd e s

theorem executorPathEnd_noted (s : State) : Noted s (executorPathEnd s) :=
  Noted.ite (Noted.ite ((closeRecord_noted _).after (.same rfl rfl)) (waitsForRest_noted .awaitHeadEnd _ s)) (.refl s)

theorem executorShortEnd_noted (e : Decision) (s : State) : Noted s (executorShortEnd e s) := (awaitEnd_noted e s).ite (.refl s)

theorem fileSecondary_noted (d : Detail) (s : State) : Noted s (fileSecondary d s) := Noted.ite (.same rfl rfl) (.refl s)

theorem stoppingCause_noted (e : Decision) (d : Detail) (s : State) : Noted s (stoppingCause e d s) := by
  have retract : Noted s (faultRetract (withdrawTarget s)) := (faultRetract_noted _).after (.same rfl rfl)
  unfold stoppingCause
  split
  · exact .refl s
  · exact .refl s
  · exact closeStopping_noted e s
  · split
    · exact closeStopping_noted e s
    · exact (awaitEnd_noted e _).after retract
  · exact (awaitEnd_noted e _).after retract
  · exact ((fileSecondary_noted d _).after retract).ite (Noted.after (.same rfl rfl) retract)
  · exact (fileSecondary_noted d _).after retract

theorem faultCause_noted (d : Detail) (s : State) : Noted s (faultCause d s) :=
  (stoppingCause_noted _ d _).after (raise_noted .fault s)

theorem headFault_noted (d : Detail) (s : State) : Noted s (headFault d s) :=
  (faultCause_noted d _).after (faultRetract_noted s)

theorem conflictStop_noted (d : Detail) (s : State) : Noted s (conflictStop d s) :=
  have stopped : Noted s (immediateStop s) := .same rfl rfl
  Noted.ite (Noted.ite stopped ((stoppingCause_noted _ d _).after stopped)) (.refl s)

theorem checkRankConflict_noted (s : State) : Noted s (checkRankConflict s) :=
  ((conflictStop_noted _ _).after (raise_noted .rankConflict s)).ite (.refl s)

theorem estopCause_noted (s : State) : Noted s (estopCause s) := by
  unfold estopCause
  split
  · exact .refl s
  · exact .refl s
  · split
    · exact (closeStopping_noted _ s).ite ((closeStopping_noted _ _).after (fileSecondary_noted _ s))
    · exact closeStopping_noted _ s
  · exact closeStopping_noted _ s

theorem retractTimeoutCause_noted (s : State) : Noted s (retractTimeoutCause s) := by
  have raised := raise_noted .fault s
  unfold retractTimeoutCause
  extract_lets x
  split
  · exact raised
  · exact raised
  · split
    · exact ((closeStopping_noted _ x).after raised).ite
        ((closeStopping_noted _ _).after ((fileSecondary_noted _ x).after raised))
    · exact (closeStopping_noted _ x).after raised

theorem retractTimesOut_noted (s : State) : Noted s (retractTimesOut s) :=
  (heldResetEffect_noted _).after ((retractTimeoutCause_noted _).after (Noted.after (.same rfl rfl) (enterHalted_noted s)))

theorem idleStation_noted (s : State) : Noted s (setStation .idle (setExecutor .idle s)) :=
  (setStation_noted _ _).after (setExecutor_noted _ s)

theorem headEnd_noted (s : State) : Noted s (headEnd s) :=
  (closeIfRest_noted s).ite ((lineResetEffect_noted s).ite ((idleStation_noted s).ite (.refl s)))

theorem haltTaken_noted (s : State) : Noted s (haltTaken s) := by
  have halting (e : Decision) :
      Noted s (closeIfRest (setExecutor .halting (decideEnd e (normalRetract (withdrawTarget s))))) :=
    (waitsForRest_noted .halting e _).after ((normalRetract_noted _).after (.same rfl rfl))
  unfold haltTaken
  extract_lets e
  split
  · exact .refl s
  · exact .refl s
  · exact .refl s
  · exact closeStopping_noted e s
  · split
    · exact closeStopping_noted e s
    · exact halting e
  · exact halting e
  · exact (Noted.refl s).ite ((setExecutor_noted _ _).after (.same rfl rfl))

theorem pauseCounts_noted (s : State) : Noted s (pauseCounts s) :=
  Noted.ite ((closeRecord_noted _).after (.same rfl rfl)) (.same rfl rfl)

theorem executorCloses_noted (s : State) : Noted s (executorCloses s) :=
  (closeIfRest_noted s).ite ((completeFetch_noted s).ite (.refl s))

theorem executorTurn_noted (s : State) : Noted s (executorTurn s) := (pauseCounts_noted s).ite (executorCloses_noted s)

theorem startHeld_noted (s : State) : Noted s (startHeld s) := by
  unfold startHeld
  split
  · exact startRecord_noted _ s
  · exact .refl s

/-! ### The blocks' events -/

theorem portWork_noted (s : State) : Noted s (portWork s) :=
  Noted.ite ((faultCause_noted _ _).after (.same rfl rfl)) (.same rfl rfl)

theorem periodWork_noted (s : State) : Noted s (periodWork s) :=
  Noted.ite ((beaconDue_noted _).after (.same rfl rfl)) (Noted.ite (.same rfl rfl) (.refl s))

theorem holdOffWork_noted (s : State) : Noted s (holdOffWork s) :=
  Noted.ite (Noted.ite ((beaconDue_noted _).after (.same rfl rfl)) (.same rfl rfl)) (.refl s)

theorem lineWork_noted (s : State) : Noted s (lineWork s) := (holdOffWork_noted _).after (periodWork_noted s)

theorem orderedWork_noted (o : ExpiryOrder) (s : State) : Noted s (orderedWork o s) := by
  have port := portWork_noted
  have executor := executorTurn_noted
  have line := lineWork_noted
  cases o with
  | portExecutorLine => exact (line _).after ((executor _).after (port s))
  | portLineExecutor => exact (executor _).after ((line _).after (port s))
  | executorPortLine => exact (line _).after ((port _).after (executor s))
  | executorLinePort => exact (port _).after ((line _).after (executor s))
  | linePortExecutor => exact (executor _).after ((port _).after (line s))
  | lineExecutorPort => exact (port _).after ((executor _).after (line s))

theorem ageingEvent_noted (s : State) : Noted s (ageingEvent s) := (checkRankConflict_noted _).after (ageTable_noted s)

theorem phaseCheck_noted (s : State) : Noted s (phaseCheck s) := by
  unfold phaseCheck
  split
  · exact headFault_noted _ s
  · exact (retractTimesOut_noted s).ite (endDwell_noted s)

theorem forceCheck_noted (s : State) : Noted s (forceCheck s) := (headFault_noted _ s).ite (.refl s)

theorem headExpiry_noted (b : Bool) (s : State) : Noted s (headExpiry b s) := by
  have ramped : Noted s (headRamps (headCounts s)) := (headRamps_noted _).after (.same rfl rfl)
  have checked := Noted.ite (p := b = true) ((forceCheck_noted _).after (phaseCheck_noted (headRamps (headCounts s))))
    ((phaseCheck_noted _).after (forceCheck_noted (headRamps (headCounts s))))
  exact (startPendingRetract_noted _).after (checked.after ramped)

theorem travelReported_noted (r : TravelReport) (s : State) : Noted s (travelReported r s) := by
  cases r with
  | none => exact .refl s
  | pathEnd => exact (executorPathEnd_noted _).after ((headPathEnd_noted s).ite (.refl s))
  | stall => exact executorShortEnd_noted _ s
  | holdExpired => exact (executorShortEnd_noted _ _).after (retractOnReport_noted s)
  | holdStop => exact (executorShortEnd_noted _ _).after (retractOnReport_noted s)

theorem travelEvent_noted (s : State) : Noted s (travelEvent s) := by
  unfold travelEvent
  split
  · exact .refl s
  · exact (travelReported_noted _ _).after (applyTravel_noted _ s)

/-! ### The drive's messages and the lines -/

theorem handOn_noted (m : Feedback) (s : State) : Noted s (handOn m s) := by
  have position (x : State) : Noted x (followPosition m x) := Noted.ite (.same rfl rfl) (.refl x)
  have zCommand (x : State) : Noted x (followZ m x) := (Noted.refl x).ite (.same rfl rfl)
  have force (x : State) : Noted x (takeForce m x) := Noted.ite (.same rfl rfl) (.refl x)
  exact (force _).after ((zCommand _).after ((position _).after (.same rfl rfl)))

theorem driveFault_noted (found s : State) : Noted s (driveFault found s) :=
  Noted.ite ((faultCause_noted _ _).after (.same rfl rfl)) (.refl s)

theorem feedbackFaults_noted (m : Feedback) (found s : State) : Noted s (feedbackFaults m found s) := by
  have position : Noted s (positionFault m found s) :=
    (driveFault_noted found s).ite (Noted.ite ((faultCause_noted _ _).after (.same rfl rfl)) (.refl s))
  have overload (x : State) : Noted x (overloadFault m found x) := (headFault_noted _ x).ite (.refl x)
  have code (x : State) : Noted x (codeFault m found x) := (Noted.refl x).ite (driveFault_noted found x)
  exact (code _).after ((overload _).after position)

theorem feedbackCompletes_noted (m : Feedback) (found s : State) : Noted s (feedbackCompletes m found s) := by
  unfold feedbackCompletes
  refine (Noted.refl s).ite ((enterHead_noted _ s).ite (((headEnd_noted _).after (enterParked_noted s)).ite ?_))
  split
  · exact (plungeDone_noted _ s).ite (.refl s)
  · exact .refl s

theorem takeFeedback_noted (b : Bool) (s : State) : Noted s (takeFeedback b s) := by
  unfold takeFeedback
  split
  · exact .refl s
  · exact ((feedbackFaults_noted _ _ _).after ((feedbackCompletes_noted _ _ _).after (handOn_noted _ s))).ite
      ((feedbackCompletes_noted _ _ _).after ((feedbackFaults_noted _ _ _).after (handOn_noted _ s)))

theorem estopAsserted_noted (s : State) : Noted s (estopAsserted s) := by
  have halts (x : State) : Noted x (if x.hs.state = .parked ∨ x.hs.state = .halted then x else enterHalted x) :=
    (Noted.refl x).ite (enterHalted_noted x)
  exact (heldResetEffect_noted _).after ((estopCause_noted _).after ((halts _).after (.same rfl rfl)))

theorem clampOpens_noted (s : State) : Noted s (clampOpens s) :=
  Noted.ite ((headFault_noted _ _).after (.same rfl rfl)) (.same rfl rfl)

/-! ### The frames' owners -/

theorem jointsFiled_noted (r : Rank) (c : BeaconContent) (s : State) : Noted s (jointsFiled r c s) :=
  ((startHeld_noted _).after (setJoints_noted _ s)).ite (setJoints_noted _ s)

theorem neighbourBeacon_noted (r : Rank) (c : BeaconContent) (s : State) : Noted s (neighbourBeacon r c s) := by
  have filed : Noted s (jointsFiled r c (fileBeacon r c s)) := (jointsFiled_noted r c _).after (fileBeacon_noted r c s)
  exact ((checkRankConflict_noted _).after filed).ite filed

theorem beaconTaken_noted (f : ReceivedFrame) (s : State) : Noted s (beaconTaken f s) :=
  Noted.ite (((conflictStop_noted _ _).after (raise_noted .duplicateRank s)).ite (neighbourBeacon_noted _ _ s)) (.refl s)

theorem overrideTaken_noted (f : ReceivedFrame) (s : State) : Noted s (overrideTaken f s) :=
  (raiseIf_noted _ _ _).after (.same rfl rfl)

theorem setupTaken_noted (f : ReceivedFrame) (s : State) : Noted s (setupTaken f s) := by
  have install (mask : BitVec 8) (c : Constants) (x : State) : Noted x (installSetup mask c x) :=
    (setStation_noted _ _).after (.same rfl rfl)
  exact (raise_noted _ s).ite ((raise_noted _ s).ite ((install _ _ _).after (raiseIf_noted _ _ s)))

theorem startChain_noted (s : State) : Noted s (startChain s) := by
  have enable (x : State) : Noted x (startEnable x) := (Noted.refl x).ite (.same rfl rfl)
  exact (enable _).after (Noted.after (.same rfl rfl) (setStation_noted .running s))

theorem jobStartTaken_noted (f : ReceivedFrame) (s : State) : Noted s (jobStartTaken f s) := by
  unfold jobStartTaken
  split
  · exact .refl s
  · exact (raise_noted _ s).ite ((beginFetch_noted _ _ _).after (startChain_noted s))

theorem jobClearTaken_noted (s : State) : Noted s (jobClearTaken s) := by
  have retract (x : State) : Noted x (beginRetractFromHalted x) := Noted.after (.same rfl rfl) (enterRetracting_noted x)
  have acts (x : State) : Noted x (if x.su.station = .unconfigured then x
      else if x.hs.state = .halted then beginRetractFromHalted x
      else if x.su.station = .stopped ∧ x.hs.state = .parked then setStation .idle (setExecutor .idle x) else x) :=
    (Noted.refl x).ite ((retract x).ite ((idleStation_noted x).ite (.refl x)))
  exact (raise_noted _ s).ite ((acts _).after (jobCleared_noted s))

theorem lineResetTaken_noted (s : State) : Noted s (lineResetTaken s) :=
  Noted.ite ((Noted.refl s).ite ((haltTaken_noted _).after (.same rfl rfl)))
    (Noted.ite (.same rfl rfl) (lineResetEffect_noted s))

theorem queueReply_noted (r : Reply) (s : State) : Noted s (queueReply r s) := .same rfl rfl

theorem passLoadTaken_noted (f : ReceivedFrame) (s : State) : Noted s (passLoadTaken f s) :=
  (queueReply_noted _ _).after (Noted.ite (.same rfl rfl) (.refl s))

theorem regionLoadTaken_noted (f : ReceivedFrame) (s : State) : Noted s (regionLoadTaken f s) := .same rfl rfl

theorem stationRequest_noted (f : ReceivedFrame) (s : State) : Noted s (stationRequest f s) :=
  Noted.ite (.same rfl rfl) (.refl s)

theorem completionRequest_noted (f : ReceivedFrame) (s : State) : Noted s (completionRequest f s) :=
  Noted.ite ((queueReply_noted _ _).after ((setCompletionPending_noted false s).ite (.refl s))) (.refl s)

theorem attentionRequest_noted (f : ReceivedFrame) (s : State) : Noted s (attentionRequest f s) :=
  Noted.ite ((queueReply_noted _ _).after ((clearFlags_noted s).ite (.refl s))) (.refl s)

/-! ### The end of an event (R154) -/

/-- What R154 asks of a change from `s` to `t`. -/
def ReachesLine (s t : State) : Prop :=
  reportedOf t ≠ reportedOf s → t.pli.changeWaiting = true ∨ t.pli.beacon = some (assembleBeacon t)

theorem ReachesLine.of_same (h : reportedOf t = reportedOf s) : ReachesLine s t := fun changed => absurd h changed

theorem ReachesLine.refl (s : State) : ReachesLine s s := .of_same rfl

theorem beaconDue_reports (s : State) :
    (beaconDue s).pli.changeWaiting = true ∨ (beaconDue s).pli.beacon = some (assembleBeacon (beaconDue s)) := by
  unfold beaconDue
  split
  · exact .inl rfl
  · exact .inr rfl

theorem reportChange_reports (s : State) :
    (reportChange s).pli.changeWaiting = true ∨ (reportChange s).pli.beacon = some (assembleBeacon (reportChange s)) := by
  unfold reportChange
  split
  · exact beaconDue_reports s
  · split
    · exact .inl rfl
    · exact beaconDue_reports s

theorem reportedOf_settle (s : State) : reportedOf (settle s) = reportedOf s := by
  obtain ⟨l, event, -⟩ := settle_eq s
  rw [event]
  rfl

/-- A noted change is reported as the event ends. -/
theorem Noted.settle (h : Noted s t) : ReachesLine s (settle t) := by
  intro changed
  rw [reportedOf_settle] at changed
  have noted : t.pli.changeNoted = true := h.resolve_right (fun ⟨same, _⟩ => changed same)
  rw [Sys2Proof.Machine.settle, if_pos noted]
  exact reportChange_reports _

/-- A row that names one outcome of an event (log 2). -/
theorem Noted.gated {p : Prop} [Decidable p] (h : Noted s t) :
    ReachesLine s (if p then Sys2Proof.Machine.settle t else s) := by
  split
  · exact h.settle
  · exact .refl s

/-- A row that acts but in a state where it has nothing to do (logs 25, 29). -/
theorem Noted.unless {p : Prop} [Decidable p] (h : Noted s t) :
    ReachesLine s (if p then s else Sys2Proof.Machine.settle t) := by
  split
  · exact .refl s
  · exact h.settle

theorem onFrame_reaches (k : FrameKind) (bs : List Byte) {act : ReceivedFrame → State → State}
    (ha : ∀ f x, Noted x (act f x)) (s : State) : ReachesLine s (onFrame k bs act s) := by
  unfold onFrame
  split
  · exact .of_same rfl
  · exact ((ha _ (receptionEnds s)).after (.same rfl rfl)).settle

theorem reportedOf_lineStarts (rivals : List Byte) (s : State) : reportedOf (lineStarts rivals s) = reportedOf s := by
  unfold lineStarts
  split
  · rfl
  · split
    · rfl
    · next f _ =>
      cases f with
      | beacon b => rw [apply_ite reportedOf]; exact ite_self _
      | reply x => rw [apply_ite reportedOf]; exact ite_self _

theorem reportedOf_lineLeft (s : State) : reportedOf (lineLeft s) = reportedOf s := by
  unfold lineLeft
  split <;> rfl

/-! ### Every command -/

/-- A feedback message received is held in its slot, or discarded: nothing reported changes (R174). -/
theorem feedbackReceived_reaches {message : List Byte} (h : exec (.feedbackReceived message) s = .next t) :
    ReachesLine s t := by
  cases h
  split
  · exact .of_same rfl
  · exact .refl s

/-- R154: but for power-up a command's event ends with its changes reported, or it changes nothing that is. -/
theorem exec_reaches {c : Instr} (h : exec c s = .next t) (noPowerUp : ¬ ∃ l, c = .powerUp l) : ReachesLine s t := by
  cases c with
  | powerUp l => exact absurd ⟨l, rfl⟩ noPowerUp
  | intervalClockExpiry o => cases h; exact ((orderedWork_noted o _).after (.same rfl rfl)).settle
  | neighbourTableAgeing => cases h; exact (ageingEvent_noted s).settle
  | entryGoesSilent r => cases h; exact (ageingEvent_noted s).gated
  | travelComputation => cases h; exact (travelEvent_noted s).settle
  | stall => cases h; exact (travelEvent_noted s).gated
  | holdExpired => cases h; exact (travelEvent_noted s).gated
  | headExpiryWork => cases h; exact (headExpiry_noted _ s).settle
  | spinTimeout => cases h; exact (headExpiry_noted _ s).gated
  | plungeTimeout => cases h; exact (headExpiry_noted _ s).gated
  | dwellEnd => cases h; exact (headExpiry_noted _ s).gated
  | forceLost => cases h; exact (headExpiry_noted _ s).gated
  | retractTimeout => cases h; exact (headExpiry_noted _ s).gated
  | pendingRetractStart => cases h; exact (headExpiry_noted _ s).gated
  | jointUnitExpiry => cases h; exact (jointExpiry_noted s).settle
  | coolingRunsOut => cases h; exact (jointExpiry_noted s).gated
  | pauseEnd => cases h; exact (pauseCounts_noted s).gated
  | feedbackLost => cases h; exact (portWork_noted s).gated
  | demandMessage => cases h; exact .of_same rfl
  | beaconPeriodDue => cases h; exact (periodWork_noted s).gated
  | holdOffEnd => cases h; exact (holdOffWork_noted s).settle
  | frameStart rivals => cases h; exact .of_same (reportedOf_lineStarts rivals s)
  | frameLeftLine => cases h; exact .of_same (reportedOf_lineLeft s)
  | frameDiscarded bs => cases h; exact .of_same rfl
  | beacon bs => cases h; exact onFrame_reaches _ bs beaconTaken_noted s
  | heldRecordStart => cases h; exact (startHeld_noted s).settle
  | halt bs => cases h; exact onFrame_reaches _ bs (fun _ => haltTaken_noted) s
  | lineReset bs => cases h; exact onFrame_reaches _ bs (fun _ => lineResetTaken_noted) s
  | lineResetTakesEffect => cases h; exact (lineResetEffect_noted s).unless
  | setup bs => cases h; exact onFrame_reaches _ bs setupTaken_noted s
  | jobStart bs => cases h; exact onFrame_reaches _ bs jobStartTaken_noted s
  | jobClear bs => cases h; exact onFrame_reaches _ bs (fun _ => jobClearTaken_noted) s
  | override bs => cases h; exact onFrame_reaches _ bs overrideTaken_noted s
  | passLoad bs => cases h; exact onFrame_reaches _ bs passLoadTaken_noted s
  | regionLoad bs => cases h; exact onFrame_reaches _ bs regionLoadTaken_noted s
  | statusRequestStation bs => cases h; exact onFrame_reaches _ bs stationRequest_noted s
  | statusRequestCompletion bs => cases h; exact onFrame_reaches _ bs completionRequest_noted s
  | statusRequestAttention bs => cases h; exact onFrame_reaches _ bs attentionRequest_noted s
  | statusRequestJoints bs => cases h; exact onFrame_reaches _ bs (fun _ x => Noted.ite (queueReply_noted _ x) (.refl x)) s
  | statusRequestFormat bs => cases h; exact onFrame_reaches _ bs (fun _ x => Noted.ite (queueReply_noted _ x) (.refl x)) s
  | feedbackReceived m => exact feedbackReceived_reaches h
  | feedbackTaken => cases h; exact (takeFeedback_noted _ s).settle
  | spinUpComplete => cases h; exact (takeFeedback_noted _ s).gated
  | plungeComplete => cases h; exact (takeFeedback_noted _ s).gated
  | retractComplete => cases h; exact (takeFeedback_noted _ s).gated
  | recordClose => cases h; exact (executorCloses_noted s).settle
  | emergencyStopAsserted => cases h; exact (estopAsserted_noted s).unless
  | emergencyStopReleased => cases h; exact .of_same rfl
  | clampLineFalse => cases h; exact (clampOpens_noted s).gated
  | clampLineTrue => cases h; exact .of_same rfl

/-- Settles O9: a change is noted as it comes about, and the event's end reports what is noted. -/
theorem reportedChangesReachTheLine : Obligations.ReportedChangesReachTheLine := by
  intro c s t h changed
  by_cases powered : ∃ l, c = .powerUp l
  · exact .inl powered
  · exact .inr (exec_reaches h powered changed)

end Sys2Proof.Machine

namespace Sys2Proof.Machine

variable {s t : State}

/-! ### A step and the queue of waiting commands (R160) -/

theorem step_of_front {c : Instr} {rest : List Instr} (h : s.pending = c :: rest) :
    step s = exec c { s with pending := rest } := by
  simp only [step, h]

theorem step_of_empty (h : s.pending = []) : step s = .next s := by
  simp only [step, h]

/-- Settles O1: a step is the front command on the queue's rest, or nothing where none waits. -/
theorem stepTakesFrontCommand : Obligations.StepTakesFrontCommand :=
  ⟨fun _ _ _ => step_of_front, fun _ => step_of_empty⟩

/-- No command's meaning faults or is refused. -/
theorem exec_next (c : Instr) (s : State) : ∃ t, exec c s = .next t := by
  cases c <;> exact ⟨_, rfl⟩

/-- No block's work is on the queue, and power-up carries it over: it is the model's, not the part's. -/
theorem exec_pending {c : Instr} (h : exec c s = .next t) : t.pending = s.pending := by
  rcases store_cases c with ⟨l, rfl⟩ | ⟨o, rfl⟩ | ⟨bs, rfl⟩ | ⟨bs, rfl⟩ | hc
  · cases h
    rfl
  · exact (exec_expiry_change h).kept .pending (by simp [chainParts])
  · exact (exec_passLoad_effect h).1 .pending (by simp)
  · exact (exec_regionLoad_effect h).1 .pending (by simp)
  · exact (exec_change hc h).kept .pending (by simp [chainParts])

/-- Settles O2: every command answers a next state, and none of the parts it may change is the queue. -/
theorem commandsLeaveQueue : Obligations.CommandsLeaveQueue := by
  intro c s
  obtain ⟨t, h⟩ := exec_next c s
  exact ⟨t, h, exec_pending h⟩

end Sys2Proof.Machine

namespace Sys2Proof.Machine

variable {s : State}

/-! ### A feedback message as received (12.8, R174) -/

theorem bitOf_eq (n k : Nat) : bitOf n k = decide (n / 2 ^ k % 2 = 1) := rfl

theorem bitOf_threeBits : ∀ a z f : Bool, bitOf (bitNat a + 2 * bitNat z + 4 * bitNat f) 0 = a
    ∧ bitOf (bitNat a + 2 * bitNat z + 4 * bitNat f) 1 = z ∧ bitOf (bitNat a + 2 * bitNat z + 4 * bitNat f) 2 = f := by
  decide

theorem threeBits_lt (a z f : Bool) : bitNat a + 2 * bitNat z + 4 * bitNat f < 256 := by
  have ha := bitNat_lt_two a
  have hz := bitNat_lt_two z
  have hf := bitNat_lt_two f
  omega

/-- R174: bytes of another length than twelve, or of another check, are no message (log 41). -/
theorem parseFeedback_of_invalid {bs : List Byte}
    (h : bs.length ≠ 12 ∨ natOfBytes (bs.drop 10) ≠ checkOf (bs.take 10)) : parseFeedback bs = none :=
  if_neg (not_and_or.mpr h)

/-- Twelve bytes whose check holds are a message, with every field at its place of 12.8 and its unused bits left out. -/
theorem parseFeedback_of_valid {bs : List Byte} (length : bs.length = 12)
    (check : natOfBytes (bs.drop 10) = checkOf (bs.take 10)) : parseFeedback bs =
      some { position := fieldAt bs 0 4, z := fieldAt bs 4 2, atSpeed := bitOf (fieldAt bs 6 1) 0
             zClear := bitOf (fieldAt bs 6 1) 1, force := bitsOf (fieldAt bs 7 2) 0 12
             forceValid := bitOf (fieldAt bs 6 1) 2, faultCode := fieldAt bs 9 1 } :=
  if_pos ⟨length, check⟩

/-- Ten bytes sent with their check sequence arrive as twelve whose check holds. -/
theorem withCheck_valid {body : List Byte} (h : body.length = 10) : (withCheck body).length = 12
    ∧ natOfBytes ((withCheck body).drop 10) = checkOf ((withCheck body).take 10) := by
  refine ⟨by simp [withCheck, h], ?_⟩
  rw [withCheck, List.drop_left' h, List.take_left' h, natOfBytes_check]

/-- The fields of a feedback message stand at their places of 12.8. -/
theorem fieldAt_feedbackBytes {m : Feedback} (position : m.position < 4294967296) (z : m.z < 65536) (force : m.force < 4096)
    (faultCode : m.faultCode < 256) :
    fieldAt (feedbackBytes m) 0 4 = m.position ∧ fieldAt (feedbackBytes m) 4 2 = m.z
    ∧ fieldAt (feedbackBytes m) 6 1 = bitNat m.atSpeed + 2 * bitNat m.zClear + 4 * bitNat m.forceValid
    ∧ fieldAt (feedbackBytes m) 7 2 = m.force ∧ fieldAt (feedbackBytes m) 9 1 = m.faultCode := by
  have bits := threeBits_lt m.atSpeed m.zClear m.forceValid
  have forceField : m.force < 65536 := by omega
  simp only [feedbackBytes, withCheck, List.append_assoc, fieldAt_bytesOfNat_skip, fieldAt_bytesOfNat_append, Nat.reduceSub,
    Nat.reduceLeDiff, Nat.reducePow, Nat.le_refl, position, z, bits, forceField, faultCode, and_self]

/-- A feedback message is read as it was sent (12.8). -/
theorem parseFeedback_feedbackBytes {m : Feedback} (position : m.position < 4294967296) (z : m.z < 65536)
    (force : m.force < 4096) (faultCode : m.faultCode < 256) : parseFeedback (feedbackBytes m) = some m := by
  obtain ⟨length, check⟩ : (feedbackBytes m).length = 12
      ∧ natOfBytes ((feedbackBytes m).drop 10) = checkOf ((feedbackBytes m).take 10) := withCheck_valid (by simp)
  obtain ⟨positionAt, zAt, bitsAt, forceAt, faultAt⟩ := fieldAt_feedbackBytes position z force faultCode
  obtain ⟨atSpeed, zClear, forceValid⟩ := bitOf_threeBits m.atSpeed m.zClear m.forceValid
  have forceBits : bitsOf m.force 0 12 = m.force := by unfold bitsOf; omega
  rw [parseFeedback_of_valid length check, positionAt, zAt, bitsAt, forceAt, faultAt, atSpeed, zClear, forceValid, forceBits]

/-! ### The drive link's two commands (R172, R174) -/

/-- R172: with the enable off the spindle demand goes out as 0; p and the Z command go out as they stand (log 39). -/
theorem bytes_demandNow (s : State) : (demandNow s).bytes =
    withCheck (bytesOfNat 4 (s.tg.p.getD 0) ++ bytesOfNat 2 s.hs.zCommand
      ++ bytesOfNat 2 (if s.dp.enable then s.hs.spindle else 0) ++ bytesOfNat 1 (if s.dp.enable then 1 else 0)) := rfl

theorem exec_demandMessage (s : State) : exec .demandMessage s =
    .next (s.withDp { s.dp with demand := some (demandNow s), demandBytes := (demandNow s).bytes }) := rfl

theorem exec_feedbackReceived_of_some {bs : List Byte} {m : Feedback} (h : parseFeedback bs = some m) :
    exec (.feedbackReceived bs) s = .next (s.withDp { s.dp with slot := some m }) := by
  simp only [exec, execFeedbackReceived, h]

theorem exec_feedbackReceived_of_none {bs : List Byte} (h : parseFeedback bs = none) :
    exec (.feedbackReceived bs) s = .next s := by
  simp only [exec, execFeedbackReceived, h]

/-- Settles O41: what a demand message carries, and what a feedback message leaves in the slot, by how its bytes are read. -/
theorem driveLinkMessages : Obligations.DriveLinkMessages := by
  refine ⟨fun s => ?demand, fun s m position z force faultCode => ?sent, fun s bs length check => ?valid,
    fun s bs invalid => ?invalid⟩
  case demand =>
    rw [exec_demandMessage, bytes_demandNow]
    rfl
  case sent => exact exec_feedbackReceived_of_some (parseFeedback_feedbackBytes position z force faultCode)
  case valid =>
    have parsed := parseFeedback_of_valid length check
    simp only [bitOf_eq, bitsOf, pow_zero, pow_one, Nat.div_one, Nat.reducePow] at parsed
    exact exec_feedbackReceived_of_some parsed
  case invalid => exact exec_feedbackReceived_of_none (parseFeedback_of_invalid invalid)

end Sys2Proof.Machine

namespace Sys2Proof.Machine

variable {s t u : State} {sender dest : Nat} {sec opt : Byte}

/-! ### The sections' bytes (12.5) -/

theorem bytesOfNat_toNat (b : Byte) : bytesOfNat 1 b.toNat = [b] := by
  simp [bytesOfNat]

/-- The bits of the STATION section's bits byte, each by its own condition (12.5). -/
theorem stationBits_eq (p : Option Nat) (d : Direction) (estop clamp : Bool) :
    bitNat p.isSome + 2 * d.code + 4 * bitNat estop + 8 * bitNat clamp
      = (if p = none then 0 else 1) + (if d = .down then 2 else 0) + (if estop then 4 else 0) + (if clamp then 8 else 0) := by
  cases p <;> cases d <;> cases estop <;> cases clamp <;> rfl

/-- R185: the region descriptor's bytes are those of p, and 255 while p is unknown. -/
theorem stationRegion_eq (s : State) :
    (if s.tg.p.isSome then (descriptorAtP s).window.getD 255 else 255)
        = (match s.tg.p with
          | some p => ((decodeRegion s.rm p).window).getD 255
          | none => 255)
      ∧ (if s.tg.p.isSome then (descriptorAtP s).kind.code else 255)
        = (match s.tg.p with
          | some p => (decodeRegion s.rm p).kind.code
          | none => 255) := by
  unfold descriptorAtP
  cases s.tg.p <;> exact ⟨rfl, rfl⟩

/-- The STATION section as 12.5 lists it. -/
theorem stationContent_eq (s : State) : stationContent s
    = bytesOfNat 1 s.ownRank.val ++ bytesOfNat 1 s.su.station.code ++ bytesOfNat 1 s.px.state.code
      ++ bytesOfNat 1 s.hs.state.code ++ bytesOfNat 1 s.su.resetCause.code ++ bytesOfNat 4 s.clock.toNat
      ++ bytesOfNat 1 s.nt.view.toNat ++ (s.nt.entries.map entryBytes).flatten ++ bytesOfNat 2 s.px.index
      ++ bytesOfNat 1 ((if s.tg.p = none then 0 else 1) + (if s.tg.dir = .down then 2 else 0)
          + (if s.dp.estop then 4 else 0) + (if s.dp.clamp then 8 else 0))
      ++ bytesOfNat 4 (positionField s) ++ bytesOfNat 2 s.tg.v
      ++ bytesOfNat 1 (match s.tg.p with
          | some p => ((decodeRegion s.rm p).window).getD 255
          | none => 255)
      ++ bytesOfNat 1 (match s.tg.p with
          | some p => (decodeRegion s.rm p).kind.code
          | none => 255)
      ++ bytesOfNat 1 s.px.overrideInForce ++ bytesOfNat 1 (s.px.pendingOverride.getD 0)
      ++ bytesOfNat 2 (s.hs.trim % 65536).toNat := by
  obtain ⟨window, kind⟩ := stationRegion_eq s
  rw [← window, ← kind, ← stationBits_eq, bytesOfNat_toNat]
  rfl

/-- R185: the position bytes carry p where it is known. -/
theorem positionField_of_known {p : Nat} (h : s.tg.p = some p) : positionField s = p := by
  simp only [positionField, h]

/-! ### A status request is answered (R184, R150) -/

/-- A STATUS REQUEST as its owner is handed it. -/
def statusFrame (sender dest : Nat) (sec opt : Byte) : ReceivedFrame :=
  { cls := FrameKind.statusRequest.cls, sender := sender, dest := dest, kindCode := FrameKind.statusRequest.code
    payload := [sec, opt] }

theorem sectionNamed_statusFrame {x : Option Section} (h : Section.ofCode sec.toNat = x) :
    sectionNamed (statusFrame sender dest sec opt) = x :=
  (congrArg Section.ofCode (fieldAt_cons sec [opt])).trans h

theorem clearAsked_statusFrame : clearAsked (statusFrame sender dest sec opt) = decide (opt.toNat % 2 = 1) := by
  have byte : fieldAt [sec, opt] 1 1 = opt.toNat := (fieldAt_cons_skip (le_refl 1) sec [opt] 1).trans (fieldAt_cons opt [])
  rw [Bool.eq_iff_iff, clearAsked, statusFrame, byte, bitOf_zero, decide_eq_true_iff]

theorem ofCode_eq_none (n : Nat) (h : n = 0 ∨ 4 < n) : Section.ofCode n = none := by
  rcases h with rfl | h
  · rfl
  · obtain ⟨k, rfl⟩ := Nat.exists_eq_add_of_lt h
    rw [Nat.add_comm 4 k]
    rfl

/-- The line once a STATUS REQUEST is answered: the reception over, the STATUS REPLY the newest (R148, R150). -/
def statusAnswered (sender : Nat) (payload : List Byte) (l : PeerLine) : PeerLine :=
  { l with reception := .none, replies := l.replies ++ [.status sender payload] }

/-- As `statusAnswered`, where an operation stood between the reception's end and the reply. -/
theorem lineKeeps_statusAnswered {a b : PeerLine} (h : LineKeeps { a with reception := .none } b) (payload : List Byte) :
    LineKeeps (statusAnswered sender payload a) { b with replies := b.replies ++ [.status sender payload] } := by
  rw [lineKeeps_iff] at h ⊢
  obtain ⟨replies, others⟩ := h
  exact ⟨congrArg (· ++ _) replies, others⟩

theorem statusReply_eq (r : Result) (content : List Byte) (s : State) :
    statusReply (statusFrame sender dest sec opt) r content s
      = queueReply (.status sender (bytesOfNat 1 sec.toNat ++ bytesOfNat 1 r.code ++ content)) s := by
  have named : fieldAt (statusFrame sender dest sec opt).payload 0 1 = sec.toNat := fieldAt_cons sec [opt]
  rw [statusReply, named]
  rfl

theorem statusReply_receptionEnds (r : Result) (content : List Byte) (s : State) :
    statusReply (statusFrame sender dest sec opt) r content (receptionEnds s)
      = s.withPli (statusAnswered sender (bytesOfNat 1 sec.toNat ++ bytesOfNat 1 r.code ++ content) s.pli) :=
  statusReply_eq r content (receptionEnds s)

/-- A request taken whose owner touches nothing reported: the end of the event adds nothing (R154). -/
theorem onFrame_of_quiet {act : ReceivedFrame → State → State} (h : Taken .statusRequest sender dest [sec, opt] s)
    (acts : act (statusFrame sender dest sec opt) (receptionEnds s) = t) (quiet : t.pli.changeNoted = false) :
    onFrame .statusRequest (cellFrame .statusRequest sender dest [sec, opt]) act s = t := by
  subst acts
  exact (onFrame_of_taken h act).trans (settle_of_quiet quiet)

/-! ### The sections (R184 to R187, R141) -/

/-- R185: the section of the station, with a free value while p is unknown (log 8). -/
theorem stationRequest_exec (h : Taken .statusRequest sender dest [sec, opt] s) (quiet : s.pli.changeNoted = false)
    (named : sec.toNat = 1) :
    exec (.statusRequestStation (cellFrame .statusRequest sender dest [sec, opt])) s
      = .next ((s.withPli (statusAnswered sender (bytesOfNat 1 1 ++ bytesOfNat 1 0 ++ stationContent s) s.pli)).withFree
          (if s.tg.p.isSome then s.freeCount else s.freeCount + 1)) := by
  refine congrArg Host.Outcome.next (onFrame_of_quiet h ?_ quiet)
  have asked : sectionNamed (statusFrame sender dest sec opt) = some .station :=
    sectionNamed_statusFrame (congrArg Section.ofCode named)
  rw [stationRequest, if_pos asked, statusReply_receptionEnds, named]
  rfl

/-- R184, R141: the section of the joints, which has no clear option. -/
theorem jointsRequest_exec (h : Taken .statusRequest sender dest [sec, opt] s) (quiet : s.pli.changeNoted = false)
    (named : sec.toNat = 4) :
    exec (.statusRequestJoints (cellFrame .statusRequest sender dest [sec, opt])) s
      = .next (s.withPli (statusAnswered sender (bytesOfNat 1 4 ++ bytesOfNat 1 0 ++ jointsContent s) s.pli)) := by
  refine congrArg Host.Outcome.next (onFrame_of_quiet h ?_ quiet)
  have asked : sectionNamed (statusFrame sender dest sec opt) = some .joints :=
    sectionNamed_statusFrame (congrArg Section.ofCode named)
  rw [jointsRequest, if_pos asked, statusReply_receptionEnds, named]
  rfl

/-- R184: a request that names none of the four sections. -/
theorem formatRequest_exec (h : Taken .statusRequest sender dest [sec, opt] s) (quiet : s.pli.changeNoted = false)
    (unknown : sec.toNat = 0 ∨ 4 < sec.toNat) :
    exec (.statusRequestFormat (cellFrame .statusRequest sender dest [sec, opt])) s
      = .next (s.withPli (statusAnswered sender (bytesOfNat 1 sec.toNat ++ bytesOfNat 1 2) s.pli)) := by
  refine congrArg Host.Outcome.next (onFrame_of_quiet h ?_ quiet)
  rw [formatRequest, if_pos (sectionNamed_statusFrame (ofCode_eq_none _ unknown)), statusReply_receptionEnds,
    List.append_nil]
  rfl

/-- A reply queued after an operation that left the line as `line`, the event then at its end (R150, R154). -/
theorem settle_statusReply {line : PeerLine} (h : LineKeeps (receptionEnds s).pli line) (content : List Byte) (t : State) :
    ∃ l, settle (statusReply (statusFrame sender dest sec opt) .accepted content (t.withPli line)) = t.withPli l
      ∧ LineKeeps (statusAnswered sender (bytesOfNat 1 sec.toNat ++ bytesOfNat 1 0 ++ content) s.pli) l := by
  rw [statusReply_eq]
  obtain ⟨l, settled, kept⟩ := settle_eq (queueReply
    (.status sender (bytesOfNat 1 sec.toNat ++ bytesOfNat 1 Result.accepted.code ++ content)) (t.withPli line))
  exact ⟨l, settled, (lineKeeps_statusAnswered h _).trans kept⟩

/-- R186: completion pending with the clear option's effect. -/
theorem completionCleared_eq (b : Bool) (s : State) : ∃ l, (if b then setCompletionPending false s else s)
    = (s.withPx { s.px with completionPending := s.px.completionPending && !b }).withPli l ∧ LineKeeps s.pli l := by
  cases b with
  | true =>
    rw [Bool.not_true, Bool.and_false]
    exact setCompletionPending_eq false s
  | false =>
    rw [Bool.not_false, Bool.and_true]
    exact ⟨s.pli, rfl, rfl⟩

/-- R187: the flags with the clear option's effect. -/
theorem flagsCleared_eq (b : Bool) (s : State) : ∃ l, (if b then clearFlags s else s)
    = (s.withSu { s.su with flags := if b then 0 else s.su.flags }).withPli l ∧ LineKeeps s.pli l := by
  cases b with
  | true => exact clearFlags_eq s
  | false => exact ⟨s.pli, rfl, rfl⟩

/-- R186: the section of the completion record, assembled before completion pending is cleared. -/
theorem completionRequest_exec (h : Taken .statusRequest sender dest [sec, opt] s) (named : sec.toNat = 2) :
    ∃ l, exec (.statusRequestCompletion (cellFrame .statusRequest sender dest [sec, opt])) s
        = .next ((s.withPx { s.px with
            completionPending := s.px.completionPending && !decide (opt.toNat % 2 = 1) }).withPli l)
      ∧ LineKeeps (statusAnswered sender (bytesOfNat 1 2 ++ bytesOfNat 1 0 ++ completionContent s) s.pli) l := by
  obtain ⟨line, cleared, kept⟩ := completionCleared_eq (clearAsked (statusFrame sender dest sec opt)) (receptionEnds s)
  obtain ⟨l, settled, answered⟩ := settle_statusReply (sender := sender) (dest := dest) (sec := sec) (opt := opt) kept
    (completionContent s) ((receptionEnds s).withPx { s.px with
      completionPending := s.px.completionPending && !decide (opt.toNat % 2 = 1) })
  rw [named] at answered
  refine ⟨l, congrArg Host.Outcome.next ((onFrame_of_taken h completionRequest).trans (Eq.trans ?_ settled)), answered⟩
  rw [← clearAsked_statusFrame (sender := sender) (dest := dest) (sec := sec)]
  refine congrArg settle ((if_pos (sectionNamed_statusFrame (congrArg Section.ofCode named))).trans ?_)
  exact congrArg _ cleared

/-- R187: the section of the flags, assembled before the flags are cleared. -/
theorem attentionRequest_exec (h : Taken .statusRequest sender dest [sec, opt] s) (named : sec.toNat = 3) :
    ∃ l, exec (.statusRequestAttention (cellFrame .statusRequest sender dest [sec, opt])) s
        = .next ((s.withSu { s.su with flags := if decide (opt.toNat % 2 = 1) then 0 else s.su.flags }).withPli l)
      ∧ LineKeeps (statusAnswered sender (bytesOfNat 1 3 ++ bytesOfNat 1 0 ++ attentionContent s) s.pli) l := by
  obtain ⟨line, cleared, kept⟩ := flagsCleared_eq (clearAsked (statusFrame sender dest sec opt)) (receptionEnds s)
  obtain ⟨l, settled, answered⟩ := settle_statusReply (sender := sender) (dest := dest) (sec := sec) (opt := opt) kept
    (attentionContent s) ((receptionEnds s).withSu { s.su with
      flags := if decide (opt.toNat % 2 = 1) then 0 else s.su.flags })
  rw [named] at answered
  refine ⟨l, congrArg Host.Outcome.next ((onFrame_of_taken h attentionRequest).trans (Eq.trans ?_ settled)), answered⟩
  rw [← clearAsked_statusFrame (sender := sender) (dest := dest) (sec := sec)]
  refine congrArg settle ((if_pos (sectionNamed_statusFrame (congrArg Section.ofCode named))).trans ?_)
  exact congrArg _ cleared

/-- Settles O50, section by section. -/
theorem statusRequestsAnswered : Obligations.StatusRequestsAnswered := by
  intro s sender dest sec opt taken quiet
  refine ⟨fun named => ?_, fun named => ?_, fun named => ?_, fun named => ?_,
    fun unknown => formatRequest_exec taken quiet unknown⟩
  · refine ⟨_, positionField s, stationRequest_exec taken quiet named, ?_, fun p hp => positionField_of_known hp, ?_⟩
    · exact (withPli_keeps s _).then (withFree_keeps _ _) (by rfl) (by rfl)
    · rw [stationContent_eq]
      simp only [State.withFree_pli, State.withPli_pli, statusAnswered, List.append_assoc]
      rfl
  · obtain ⟨l, answered, line⟩ := completionRequest_exec taken named
    refine ⟨_, answered, (withPx_keeps s _).then (withPli_keeps _ _) (by rfl) (by rfl), ?_, line⟩
    have kept : decide (opt.toNat % 2 = 0) = !decide (opt.toNat % 2 = 1) := by
      rw [← decide_not, decide_eq_decide]
      omega
    rw [kept]
    rfl
  · obtain ⟨l, answered, line⟩ := attentionRequest_exec taken named
    refine ⟨_, answered, (withSu_keeps s _).then (withPli_keeps _ _) (by rfl) (by rfl), ?_, line⟩
    simp only [State.withPli_su, State.withSu_su, decide_eq_true_eq]
  · rw [jointsRequest_exec taken quiet named]
    simp only [jointsContent]
    rfl

end Sys2Proof.Machine

namespace Sys2Proof.Machine

variable {s t u : State}

/-! ### Attention flags stay set (R182)

No operation clears a flag but the clearing request and a LINE RESET that takes effect; one that is pending takes effect where a
chain or a retract ends (R95, R169), and what a command does after that leaves the Status Unit as the reset left it. -/

/-- The Status Unit as a LINE RESET leaves it (R181). -/
def resetUnit : StatusUnit :=
  { station := .unconfigured, resetCause := .lineReset, lineResetPending := false, flags := 0, notifyIndex := none }

/-- Every flag set in `s` is set in `t`, and a LINE RESET is pending as it was. -/
structure FlagsHeld (s t : State) : Prop where
  flags : ∀ f, s.flag f = true → t.flag f = true
  pending : t.su.lineResetPending = s.su.lineResetPending

/-- The flags stay set, or the LINE RESET that was pending has taken effect, last of all. -/
def Sticky (s t : State) : Prop :=
  FlagsHeld s t ∨ (s.su.lineResetPending = true ∧ t.su = resetUnit)

namespace FlagsHeld

theorem refl (s : State) : FlagsHeld s s := ⟨fun _ h => h, rfl⟩

theorem trans (h : FlagsHeld s t) (k : FlagsHeld t u) : FlagsHeld s u :=
  ⟨fun f hf => k.flags f (h.flags f hf), k.pending.trans h.pending⟩

/-- An operation after another. -/
theorem after (k : FlagsHeld t u) (h : FlagsHeld s t) : FlagsHeld s u := h.trans k

theorem of_su (h : t.su = s.su) : FlagsHeld s t :=
  ⟨fun f hf => by rwa [State.flag, h], congrArg StatusUnit.lineResetPending h⟩

/-- An operation that does not touch the Status Unit, after another. -/
theorem andSame (h : FlagsHeld s t) (same : u.su = t.su) : FlagsHeld s u := h.trans (of_su same)

/-- An operation that does not touch the Status Unit. -/
theorem of_keeps {l : List Part} (h : Keeps l s t) (hl : .su ∉ l) : FlagsHeld s t := .of_su (h .su hl)

theorem ite {p : Prop} [Decidable p] (h : FlagsHeld s t) (k : FlagsHeld s u) : FlagsHeld s (if p then t else u) := by
  split
  · exact h
  · exact k

theorem sticky (h : FlagsHeld s t) : Sticky s t := .inl h

end FlagsHeld

namespace Sticky

theorem refl (s : State) : Sticky s s := (FlagsHeld.refl s).sticky

/-- An operation after others that hold the flags. -/
theorem after (k : Sticky t u) (h : FlagsHeld s t) : Sticky s u :=
  k.imp h.trans (fun ⟨pending, reset⟩ => ⟨h.pending.symm.trans pending, reset⟩)

/-- An operation after one that may have brought the LINE RESET into effect, and does nothing to the Status Unit then. -/
theorem andThen (h : Sticky s t) (k : Sticky t u) (rests : t.su = resetUnit → u.su = t.su) : Sticky s u := by
  rcases h with held | ⟨pending, reset⟩
  · exact k.after held
  · exact .inr ⟨pending, (rests reset).trans reset⟩

/-- An operation that does not touch the Status Unit, after another. -/
theorem andSame (h : Sticky s t) (same : u.su = t.su) : Sticky s u := h.andThen (FlagsHeld.of_su same).sticky (fun _ => same)

theorem ite {p : Prop} [Decidable p] (h : Sticky s t) (k : Sticky s u) : Sticky s (if p then t else u) := by
  split
  · exact h
  · exact k

/-- With no LINE RESET pending, none takes effect. -/
theorem held (h : Sticky s t) (noReset : s.su.lineResetPending = false) : FlagsHeld s t :=
  h.resolve_right (fun ⟨pending, _⟩ => Bool.false_ne_true (noReset.symm.trans pending))

theorem settle (h : Sticky s t) : Sticky s (settle t) := h.andSame (settle_su t)

/-- A row that names one outcome of an event (log 2). -/
theorem gated {p : Prop} [Decidable p] (h : Sticky s t) : Sticky s (if p then Sys2Proof.Machine.settle t else s) :=
  h.settle.ite (.refl s)

end Sticky

/-! ### Operations that hold the flags -/

theorem raise_held (f : AttentionFlag) (s : State) : FlagsHeld s (raise f s) :=
  ⟨fun g hg => by rw [State.flag_raise, hg, Bool.true_or], (raise_calm f s).resetPending⟩

theorem raiseIf_held (b : Bool) (f : AttentionFlag) (s : State) : FlagsHeld s (raiseIf b f s) := (raise_held f s).ite (.refl s)

theorem setStation_held (x : StationState) (s : State) : FlagsHeld s (setStation x s) :=
  ⟨fun f hf => by rw [State.flag, setStation_su]; exact hf, by rw [setStation_su]⟩

theorem setExecutor_held (x : ExecutorState) (s : State) : FlagsHeld s (setExecutor x s) :=
  .of_keeps (setExecutor_keeps x s) (by simp)

theorem setJoints_held (j : JointUnit) (s : State) : FlagsHeld s (setJoints j s) := .of_keeps (setJoints_keeps j s) (by simp)

theorem closeJoints_held (k : EndKind) (s : State) : FlagsHeld s (closeJoints k s) :=
  (setJoints_held _ s).trans (raiseIf_held _ _ _)

theorem faultRetract_held (s : State) : FlagsHeld s (faultRetract s) := .of_keeps (faultRetract_keeps s) (by simp)

theorem normalRetract_held (s : State) : FlagsHeld s (normalRetract s) := .of_keeps (normalRetract_keeps s) (by simp)

theorem notifyFetch_held (r : PassRecord) (s : State) : FlagsHeld s (notifyFetch r s) := by
  have noticed : FlagsHeld s ((raise .notify s).withSu
      { (raise .notify s).su with notifyIndex := some (raise .notify s).px.index }) :=
    (raise_held .notify s).trans ⟨fun _ hf => hf, rfl⟩
  exact noticed.ite (.refl s)

theorem setIndex_held (i : Nat) (s : State) : FlagsHeld s (setIndex i s) := .of_keeps (setIndex_keeps i s) (by simp)

theorem takeIndex_held (i : Nat) (s : State) : FlagsHeld s (takeIndex i s) :=
  (notifyFetch_held _ _).after ((setIndex_held i s).andSame rfl)

theorem headRamps_held (s : State) : FlagsHeld s (headRamps s) := by
  have force (w : WeldParams) : FlagsHeld s (forceStep w s) := (raiseIf_held _ _ _).after (.of_su rfl)
  unfold headRamps
  split
  · exact .of_su rfl
  · exact (force _).ite (.refl s)
  · exact .of_su rfl
  · exact .refl s

/-! ### Ends (R91, R95, R169) -/

theorem lineResetEffect_sticky (h : s.su.lineResetPending = true) : Sticky s (lineResetEffect s) := .inr ⟨h, rfl⟩

theorem heldResetEffect_sticky (s : State) : Sticky s (heldResetEffect s) := by
  unfold heldResetEffect
  split
  · next due =>
    simp only [Bool.and_eq_true] at due
    exact lineResetEffect_sticky due.1.1
  · exact .refl s

/-- Once the LINE RESET has taken effect none is held. -/
theorem heldResetEffect_of_reset (h : s.su = resetUnit) : heldResetEffect s = s := by
  simp [heldResetEffect, h, resetUnit]

/-- R169: a LINE RESET that the operation before left pending may take effect. -/
theorem Sticky.heldReset (h : Sticky s t) : Sticky s (heldResetEffect t) :=
  h.andThen (heldResetEffect_sticky t) (fun reset => congrArg State.su (heldResetEffect_of_reset reset))

theorem endChain_sticky (e : Decision) (s : State) : Sticky s (endChain e s) := by
  have written (x : PassExecutor) (n : Nat) : FlagsHeld s (setCompletionPending true ((s.withPx x).withFree n)) :=
    .of_su (setCompletionPending_su _ _)
  have moved (x : ExecutorState) (y : StationState) {z : State} (h : FlagsHeld s z) :
      FlagsHeld s (setStation y (setExecutor x z)) :=
    (h.trans (setExecutor_held x z)).trans (setStation_held y _)
  unfold endChain
  dsimp only
  split
  · next pending => exact (lineResetEffect_sticky pending).after (written _ _)
  · exact (moved _ _ (written _ _)).sticky.ite (moved _ _ (written _ _)).sticky

theorem closeStopping_sticky (e : Decision) (s : State) : Sticky s (closeStopping e s) :=
  (endChain_sticky e _).after ((closeJoints_held e.kind s).trans (.of_su rfl))

/-! ### Fetch and start -/

theorem programCheck_sticky (d : Detail) (s : State) : Sticky s (programCheck d s) := by
  have checked : FlagsHeld s (raise .programCheck (s.withPx { s.px with passed := false })) :=
    (raise_held _ _).after (.of_su rfl)
  unfold programCheck
  extract_lets e p x y z
  split
  · exact (closeStopping_sticky _ _).after checked
  · have asked : FlagsHeld s z := (normalRetract_held y).after
      ((setExecutor_held .awaitHeadEnd _).after (checked.andSame rfl))
    exact ((closeStopping_sticky _ _).after asked).ite asked.sticky

theorem startFreshWeld_sticky (r : PassRecord) (s : State) : Sticky s (startFreshWeld r s) := by
  unfold startFreshWeld
  extract_lets d x y
  have joints : FlagsHeld s y := (setJoints_held _ x).after (.of_su rfl)
  have spun (w : WeldParams) : FlagsHeld s (spinUp w y) := joints.trans (.of_keeps (spinUp_keeps w y) (by simp))
  exact (spun _).sticky.ite (((closeStopping_sticky _ _).after (joints.trans (raise_held .fault y))).ite joints.sticky)

theorem handRecordOn_sticky (r : PassRecord) (s : State) : Sticky s (handRecordOn r s) := by
  have active := setExecutor_held .active s
  unfold handRecordOn
  refine (closeStopping_sticky _ s).ite ?_
  extract_lets x
  split
  · exact .inl (active.andSame rfl)
  · exact .inl (active.andSame rfl)
  · exact .inl (active.andSame rfl)
  · split
    · exact (startFreshWeld_sticky r _).after active
    · exact (active.trans (.of_keeps (startContinuation_keeps r x) (by simp))).sticky
  · exact active.sticky

theorem startRecord_sticky (r : PassRecord) (s : State) : Sticky s (startRecord r s) :=
  (setExecutor_held _ s).sticky.ite (handRecordOn_sticky r s)

theorem judgeAndStart_sticky (k : RecordKind) (r : PassRecord) (s : State) : Sticky s (judgeAndStart k r s) := by
  unfold judgeAndStart
  split
  · exact programCheck_sticky _ s
  · exact (startRecord_sticky r _).after (.of_su rfl)

theorem followBranch_sticky (r : PassRecord) (s : State) : Sticky s (followBranch r s) := by
  unfold followBranch
  extract_lets x target px y
  have read : FlagsHeld s y := (notifyFetch_held target _).after ((setIndex_held r.rate s).andSame rfl)
  refine (programCheck_sticky _ s).ite ?_
  split
  · exact (programCheck_sticky _ _).after read
  · exact (programCheck_sticky _ _).after read
  · exact (judgeAndStart_sticky _ _ _).after read

theorem completeFetch_sticky (s : State) : Sticky s (completeFetch s) := by
  unfold completeFetch
  extract_lets first px x
  have same : FlagsHeld s x := .of_su rfl
  split
  · exact (programCheck_sticky _ _).after same
  · split
    · exact (programCheck_sticky _ _).after same
    · exact ((programCheck_sticky _ _).after same).ite ((followBranch_sticky _ _).after same)
    · exact (judgeAndStart_sticky _ _ _).after same

theorem beginFetch_sticky (role : Role) (i : Nat) (s : State) : Sticky s (beginFetch role i s) := by
  unfold beginFetch
  extract_lets px x
  have fetching : FlagsHeld s x := (setExecutor_held .fetching _).after (.of_su rfl)
  exact Sticky.ite ((programCheck_sticky _ _).after (fetching.andSame rfl)) (fetching.trans (takeIndex_held i x)).sticky

/-! ### Closes and causes -/

theorem closeRecord_sticky (s : State) : Sticky s (closeRecord s) := by
  unfold closeRecord
  split
  · exact .refl s
  · split
    · exact closeStopping_sticky _ s
    · exact (beginFetch_sticky _ _ _).after ((closeJoints_held _ s).trans (.of_su rfl))

theorem closeIfRest_sticky (s : State) : Sticky s (closeIfRest s) := (closeRecord_sticky s).ite (.refl s)

/-- An end is decided, and the executor waits for rest in the state `x`. -/
theorem waitsForRest_sticky (x : ExecutorState) (e : Decision) (s : State) :
    Sticky s (closeIfRest (setExecutor x (decideEnd e s))) :=
  (closeIfRest_sticky _).after ((setExecutor_held x _).after (.of_su rfl))

theorem awaitEnd_sticky (e : Decision) (s : State) : Sticky s (awaitEnd e s) := waitsForRest_sticky .awaitHeadEnd e s

theorem executorPathEnd_sticky (s : State) : Sticky s (executorPathEnd s) :=
  Sticky.ite (Sticky.ite ((closeRecord_sticky _).after (.of_su rfl)) (waitsForRest_sticky .awaitHeadEnd _ s)) (.refl s)

theorem executorShortEnd_sticky (e : Decision) (s : State) : Sticky s (executorShortEnd e s) :=
  (awaitEnd_sticky e s).ite (.refl s)

theorem fileSecondary_held (d : Detail) (s : State) : FlagsHeld s (fileSecondary d s) :=
  .of_keeps (fileSecondary_keeps d s) (by simp)

theorem withdrawnRetract_held (s : State) : FlagsHeld s (faultRetract (withdrawTarget s)) :=
  (faultRetract_held _).after (.of_su rfl)

theorem stoppingCause_sticky (e : Decision) (d : Detail) (s : State) : Sticky s (stoppingCause e d s) := by
  have retract := withdrawnRetract_held s
  unfold stoppingCause
  split
  · exact .refl s
  · exact .refl s
  · exact closeStopping_sticky e s
  · split
    · exact closeStopping_sticky e s
    · exact (awaitEnd_sticky e _).after retract
  · exact (awaitEnd_sticky e _).after retract
  · exact (retract.trans (fileSecondary_held d _)).sticky.ite (.inl (retract.andSame rfl))
  · exact (retract.trans (fileSecondary_held d _)).sticky

theorem faultCause_sticky (d : Detail) (s : State) : Sticky s (faultCause d s) :=
  (stoppingCause_sticky _ d _).after (raise_held .fault s)

theorem headFault_sticky (d : Detail) (s : State) : Sticky s (headFault d s) :=
  (faultCause_sticky d _).after (faultRetract_held s)

theorem conflictStop_sticky (d : Detail) (s : State) : Sticky s (conflictStop d s) :=
  have stopped : FlagsHeld s (immediateStop s) := .of_su rfl
  Sticky.ite (stopped.sticky.ite ((stoppingCause_sticky _ d _).after stopped)) (.refl s)

theorem checkRankConflict_sticky (s : State) : Sticky s (checkRankConflict s) :=
  ((conflictStop_sticky _ _).after (raise_held .rankConflict s)).ite (.refl s)

theorem estopCause_sticky (s : State) : Sticky s (estopCause s) := by
  unfold estopCause
  split
  · exact .refl s
  · exact .refl s
  · split
    · exact (closeStopping_sticky _ s).ite ((closeStopping_sticky _ _).after (fileSecondary_held _ s))
    · exact closeStopping_sticky _ s
  · exact closeStopping_sticky _ s

theorem retractTimeoutCause_sticky (s : State) : Sticky s (retractTimeoutCause s) := by
  have raised := raise_held .fault s
  unfold retractTimeoutCause
  extract_lets x
  split
  · exact raised.sticky
  · exact raised.sticky
  · split
    · exact ((closeStopping_sticky _ x).after raised).ite
        ((closeStopping_sticky _ _).after (raised.trans (fileSecondary_held _ x)))
    · exact (closeStopping_sticky _ x).after raised

theorem retractTimesOut_sticky (s : State) : Sticky s (retractTimesOut s) := by
  have halted : FlagsHeld s (immediateStop (enterHalted s)) :=
    FlagsHeld.trans (.of_keeps (enterHalted_keeps s) (by simp)) (.of_su rfl)
  exact ((retractTimeoutCause_sticky _).after halted).heldReset

/-- R112, R120, R166: to IDLE with no chain. -/
theorem idleStation_held (s : State) : FlagsHeld s (setStation .idle (setExecutor .idle s)) :=
  (setExecutor_held .idle s).trans (setStation_held .idle _)

theorem headEnd_sticky (s : State) : Sticky s (headEnd s) := by
  refine (closeIfRest_sticky s).ite ?_
  split
  · next due =>
    simp only [Bool.and_eq_true] at due
    exact lineResetEffect_sticky due.1
  · exact (idleStation_held s).sticky.ite (.refl s)

theorem haltTaken_sticky (s : State) : Sticky s (haltTaken s) := by
  have waits (e : Decision) :
      Sticky s (closeIfRest (setExecutor .halting (decideEnd e (normalRetract (withdrawTarget s))))) :=
    (waitsForRest_sticky .halting e _).after (.after (normalRetract_held _) (.of_su rfl))
  unfold haltTaken
  extract_lets e
  split
  · exact .refl s
  · exact .refl s
  · exact .refl s
  · exact closeStopping_sticky _ s
  · split
    · exact closeStopping_sticky _ s
    · exact waits _
  · exact waits _
  · exact Sticky.ite (.refl s) (.inl (.after (setExecutor_held .halting _) (.of_su rfl)))

theorem pauseCounts_sticky (s : State) : Sticky s (pauseCounts s) :=
  Sticky.ite ((closeRecord_sticky _).after (.of_su rfl)) (.inl (.of_su rfl))

theorem executorCloses_sticky (s : State) : Sticky s (executorCloses s) :=
  (closeIfRest_sticky s).ite ((completeFetch_sticky s).ite (.refl s))

theorem executorTurn_sticky (s : State) : Sticky s (executorTurn s) := (pauseCounts_sticky s).ite (executorCloses_sticky s)

theorem startHeld_sticky (s : State) : Sticky s (startHeld s) := by
  unfold startHeld
  split
  · exact startRecord_sticky _ s
  · exact .refl s

end Sys2Proof.Machine

namespace Sys2Proof.Machine

variable {s t u : State}

/-! ### Causes while a LINE RESET is pending (R90, R95, R169)

A command may work on after a cause. That is safe, as a cause ends no chain while a LINE RESET is pending: it finds none, or one
that waits with its end decided. -/

/-- With a LINE RESET pending no chain runs, or it waits for its end. -/
def ResetWaits (s : State) : Prop :=
  s.su.lineResetPending = true →
    s.px.state = .idle ∨ s.px.state = .stopped ∨ s.px.state = .awaitHeadEnd ∨ s.px.state = .halting

/-- An operation holds the flags, and a LINE RESET pending still waits. -/
structure Secure (s t : State) : Prop where
  held : FlagsHeld s t
  waits : ResetWaits s → ResetWaits t

theorem ChainView.Fits.resetWaits (h : (chainView s).Fits) : ResetWaits s := by
  intro pending
  rcases h.resetPending pending with ⟨_, waiting, _⟩ | ⟨rests, _⟩
  · exact .inr (.inr waiting.symm)
  · by_contra busy
    simp only [not_or] at busy
    exact rests (h.station.running_iff.mpr ⟨busy.1, busy.2.1⟩)

namespace Secure

theorem refl (s : State) : Secure s s := ⟨.refl s, id⟩

theorem trans (h : Secure s t) (k : Secure t u) : Secure s u := ⟨h.held.trans k.held, k.waits ∘ h.waits⟩

/-- An operation that leaves the executor's state alone. -/
theorem of_state (h : FlagsHeld s t) (same : t.px.state = s.px.state) : Secure s t :=
  ⟨h, fun waits => by rw [ResetWaits, h.pending, same]; exact waits⟩

/-- An operation that touches neither the Status Unit nor the executor. -/
theorem of_keeps {l : List Part} (h : Keeps l s t) (su : .su ∉ l) (px : .px ∉ l) : Secure s t :=
  of_state (.of_keeps h su) (congrArg PassExecutor.state (h .px px))

theorem ite {p : Prop} [Decidable p] (h : Secure s t) (k : Secure s u) : Secure s (if p then t else u) := by
  split
  · exact h
  · exact k

end Secure

theorem stoppingCause_secure (e : Decision) (d : Detail) (h : ResetWaits s) : Secure s (stoppingCause e d s) := by
  by_cases pending : s.su.lineResetPending = true
  · have retract := withdrawnRetract_held s
    have same : (faultRetract (withdrawTarget s)).px = s.px := faultRetract_keeps (withdrawTarget s) .px (by simp)
    have filed : Secure s (fileSecondary d (faultRetract (withdrawTarget s))) := by
      refine .of_state (retract.trans (fileSecondary_held d _)) ?_
      rw [← same]
      unfold fileSecondary
      split <;> rfl
    rcases h pending with hx | hx | hx | hx <;> simp only [stoppingCause, hx]
    · exact .refl s
    · exact .refl s
    · exact filed.ite (.of_state (retract.andSame rfl) (show (faultRetract (withdrawTarget s)).px.state = _ by rw [same]))
    · exact filed
  · have noReset := eq_false_of_ne_true pending
    have held := (stoppingCause_sticky e d s).held noReset
    exact ⟨held, fun _ waits => absurd ((held.pending.symm.trans waits)) pending⟩

theorem raise_secure (f : AttentionFlag) (s : State) : Secure s (raise f s) :=
  .of_state (raise_held f s) (congrArg PassExecutor.state (raise_keeps f s .px (by simp)))

theorem faultRetract_secure (s : State) : Secure s (faultRetract s) :=
  .of_keeps (faultRetract_keeps s) (by simp) (by simp)

theorem faultCause_secure (d : Detail) (h : ResetWaits s) : Secure s (faultCause d s) :=
  (raise_secure .fault s).trans (stoppingCause_secure _ d ((raise_secure .fault s).waits h))

theorem headFault_secure (d : Detail) (h : ResetWaits s) : Secure s (headFault d s) :=
  (faultRetract_secure s).trans (faultCause_secure d ((faultRetract_secure s).waits h))

theorem driveFault_secure (found : State) (h : ResetWaits s) : Secure s (driveFault found s) := by
  have marked : Secure s (s.withDp { s.dp with driveReported := true }) := .of_keeps (withDp_keeps s _) (by simp) (by simp)
  exact (marked.trans (faultCause_secure _ h)).ite (.refl s)

/-- R40, R109, R177: the faults of one message. -/
theorem feedbackFaults_secure (m : Feedback) (found : State) (h : ResetWaits s) : Secure s (feedbackFaults m found s) := by
  have marked : Secure s (s.withTg { s.tg with followReported := true }) := .of_state (.of_su rfl) rfl
  have position : Secure s (positionFault m found s) :=
    (driveFault_secure found h).ite ((marked.trans (faultCause_secure _ h)).ite (.refl s))
  have overload : Secure (positionFault m found s) (overloadFault m found (positionFault m found s)) :=
    (headFault_secure _ (position.waits h)).ite (.refl _)
  have judged := position.trans overload
  exact Secure.ite judged (judged.trans (driveFault_secure found (judged.waits h)))

theorem portWork_secure (h : ResetWaits s) : Secure s (portWork s) := by
  have marked : Secure s (s.withDp { s.dp with age := countUp s.dp.age, lostReported := true }) := .of_state (.of_su rfl) rfl
  exact (marked.trans (faultCause_secure _ h)).ite (.of_state (.of_su rfl) rfl)

theorem forceCheck_secure (h : ResetWaits s) : Secure s (forceCheck s) := (headFault_secure _ h).ite (.refl s)

/-- R82: a record held in WAIT_SLOT starts, and no LINE RESET is pending then. -/
theorem startHeld_held (h : ResetWaits s) : FlagsHeld s (startHeld s) := by
  by_cases held : s.px.state = .waitSlot
  · refine (startHeld_sticky s).held (eq_false_of_ne_true fun pending => ?_)
    have waits := h pending
    simp [held] at waits
  · unfold startHeld
    split
    · next state _ => exact absurd state held
    · exact .refl s

/-! ### The blocks' work at an expiry -/

theorem lineWork_keeps (s : State) : Keeps [.pli] s (lineWork s) :=
  (periodWork_lineOnly s).1.trans (holdOffWork_lineOnly _).1

theorem portWork_sticky (s : State) : Sticky s (portWork s) :=
  Sticky.ite ((faultCause_sticky _ _).after (.of_su rfl)) (.inl (.of_su rfl))

/-- R176: in UNCONFIGURED no feedback is missed. -/
theorem portWork_su_of_reset (h : s.su = resetUnit) : (portWork s).su = s.su := by
  have rests : feedbackLostDue s = false := by simp [feedbackLostDue, h, resetUnit]
  rw [portWork, rests]
  rfl

/-- R160: the executor's turn may bring a LINE RESET into effect; the two other blocks do not, and add nothing to it. -/
theorem orderedWork_sticky (o : ExpiryOrder) (h : ResetWaits s) : Sticky s (orderedWork o s) := by
  have line (x : State) : (lineWork x).su = x.su := lineWork_keeps x .su (by simp)
  have port := portWork_secure h
  have lined : Secure s (lineWork s) := .of_keeps (lineWork_keeps s) (by simp) (by simp)
  have portLast {x : State} (k : Sticky s x) : Sticky s (portWork x) := k.andThen (portWork_sticky x) portWork_su_of_reset
  cases o with
  | portExecutorLine => exact ((executorTurn_sticky _).after port.held).andSame (line _)
  | portLineExecutor => exact (executorTurn_sticky _).after (port.held.andSame (line _))
  | executorPortLine => exact (portLast (executorTurn_sticky s)).andSame (line _)
  | executorLinePort => exact portLast ((executorTurn_sticky s).andSame (line _))
  | linePortExecutor => exact (executorTurn_sticky _).after (lined.trans (portWork_secure (lined.waits h))).held
  | lineExecutorPort => exact portLast ((executorTurn_sticky _).after lined.held)

theorem ageTable_held (s : State) : FlagsHeld s (ageTable s) := (raiseIf_held _ _ _).after (.of_su rfl)

theorem ageingEvent_sticky (s : State) : Sticky s (ageingEvent s) := (checkRankConflict_sticky _).after (ageTable_held s)

theorem phaseCheck_sticky (s : State) : Sticky s (phaseCheck s) := by
  unfold phaseCheck
  split
  · exact headFault_sticky _ s
  · exact (retractTimesOut_sticky s).ite (.inl (.of_keeps (endDwell_keeps s) (by simp)))

theorem forceCheck_sticky (s : State) : Sticky s (forceCheck s) := (headFault_sticky _ s).ite (.refl s)

/-- R108: in UNCONFIGURED the head is PARKED or HALTED, where no force is awaited. -/
theorem forceCheck_of_reset (h : (chainView s).Fits) (reset : s.su = resetUnit) : forceCheck s = s := by
  have head : s.hs.state = .parked ∨ s.hs.state = .halted := (h.unconfigured (congrArg StatusUnit.station reset)).1
  have rests : forceLostFound s = false := by
    rcases head with parked | halted
    · simp [forceLostFound, parked, HeadState.pressing]
    · simp [forceLostFound, halted, HeadState.pressing]
  rw [forceCheck, rests]
  rfl

theorem headExpiry_sticky (b : Bool) (h : (chainView s).Fits) : Sticky s (headExpiry b s) := by
  have ramped : FlagsHeld s (headRamps (headCounts s)) := (headRamps_held _).after (.of_su rfl)
  have fits : (chainView (headRamps (headCounts s))).Fits := by rwa [chainView_headRamps, chainView_headCounts]
  have phaseFirst := (phaseCheck_sticky (headRamps (headCounts s))).andThen (forceCheck_sticky _)
    (fun reset => congrArg State.su (forceCheck_of_reset (phaseCheck_fits fits) reset))
  have forceFirst := (phaseCheck_sticky _).after (forceCheck_secure fits.resetWaits).held
  have checked := (phaseFirst.ite forceFirst (p := b = true)).after ramped
  exact checked.andSame (startPendingRetract_keeps _ .su (by simp))

theorem travelReported_sticky (r : TravelReport) (s : State) : Sticky s (travelReported r s) := by
  have retract : FlagsHeld s (retractOnReport s) := .of_keeps (retractOnReport_keeps s) (by simp)
  cases r with
  | none => exact .refl s
  | pathEnd =>
    exact (executorPathEnd_sticky _).after (FlagsHeld.ite (.of_keeps (headPathEnd_keeps s) (by simp)) (.refl s))
  | stall => exact executorShortEnd_sticky _ s
  | holdExpired => exact (executorShortEnd_sticky _ _).after retract
  | holdStop => exact (executorShortEnd_sticky _ _).after retract

theorem travelEvent_sticky (s : State) : Sticky s (travelEvent s) := by
  have applied (r : TravelResult) : FlagsHeld s (applyTravel r s) := (raiseIf_held _ _ _).after (.of_su rfl)
  unfold travelEvent
  split
  · exact .refl s
  · exact (travelReported_sticky _ _).after (applied _)

theorem jointExpiry_sticky (s : State) : Sticky s (jointExpiry s) := .inl (.of_keeps (jointExpiry_keeps s) (by simp))

theorem periodWork_sticky (s : State) : Sticky s (periodWork s) := .inl (.of_keeps (periodWork_lineOnly s).1 (by simp))

theorem holdOffWork_sticky (s : State) : Sticky s (holdOffWork s) := .inl (.of_keeps (holdOffWork_lineOnly s).1 (by simp))

/-! ### The drive's messages and the lines -/

theorem handOn_keeps (m : Feedback) (s : State) : Keeps [.tg, .hs, .dp] s (handOn m s) := by
  have held : Keeps [.tg, .hs, .dp] s (holdFeedback m s) := (withDp_keeps s _).mono (by rfl)
  have position (x : State) : Keeps [.tg, .hs, .dp] x (followPosition m x) :=
    ((withTg_keeps x _).mono (by rfl)).ite (.refl _ x)
  have zCommand (x : State) : Keeps [.tg, .hs, .dp] x (followZ m x) := (Keeps.refl _ x).ite ((withHs_keeps x _).mono (by rfl))
  have force (x : State) : Keeps [.tg, .hs, .dp] x (takeForce m x) := ((withHs_keeps x _).mono (by rfl)).ite (.refl _ x)
  exact ((held.trans (position _)).trans (zCommand _)).trans (force _)

theorem feedbackCompletes_sticky (m : Feedback) (found s : State) : Sticky s (feedbackCompletes m found s) := by
  have plunged (w : WeldParams) : FlagsHeld s (plungeDone w s) := .of_keeps (plungeDone_keeps w s) (by simp)
  unfold feedbackCompletes
  refine Sticky.ite (.refl s) (Sticky.ite (.inl (.of_keeps (enterHead_keeps _ s) (by simp))) (Sticky.ite ?_ ?_))
  · exact (headEnd_sticky _).after (.of_keeps (enterParked_keeps s) (by simp))
  · split
    · exact (plunged _).sticky.ite (.refl s)
    · exact .refl s

/-- R174, R181, log 12: with a LINE RESET pending the faults come first, and what a completion brings into effect is last. -/
theorem takeFeedback_sticky (b : Bool) (h : ResetWaits s) : Sticky s (takeFeedback b s) := by
  unfold takeFeedback
  split
  · exact .refl s
  · next m _ =>
    have handed : Secure s (handOn m s) := .of_keeps (handOn_keeps m s) (by simp) (by simp)
    split
    · next completion =>
      simp only [completesFirst, Bool.and_eq_true, Bool.not_eq_true'] at completion
      obtain ⟨-, noReset⟩ := completion
      have completed := handed.held.trans ((feedbackCompletes_sticky m s _).held (handed.held.pending.trans noReset))
      have rests : ResetWaits (feedbackCompletes m s (handOn m s)) :=
        fun pending => absurd (completed.pending.symm.trans pending) (by simp [noReset])
      exact (completed.trans (feedbackFaults_secure m s rests).held).sticky
    · exact (feedbackCompletes_sticky m s _).after (handed.trans (feedbackFaults_secure m s (handed.waits h))).held

theorem estopAsserted_sticky (s : State) : Sticky s (estopAsserted s) := by
  have halts (x : State) : FlagsHeld x (if x.hs.state = .parked ∨ x.hs.state = .halted then x else enterHalted x) :=
    (FlagsHeld.refl x).ite (.of_keeps (enterHalted_keeps x) (by simp))
  exact Sticky.heldReset ((estopCause_sticky _).after ((halts _).after (.of_su rfl)))

theorem clampOpens_sticky (s : State) : Sticky s (clampOpens s) :=
  Sticky.ite ((headFault_sticky _ _).after (.of_su rfl)) (.inl (.of_su rfl))

/-! ### The frames' owners -/

/-- R6, R82, R129, R132: the record that a beacon starts leaves no LINE RESET behind for the check of the ranks. -/
theorem neighbourBeacon_sticky (r : Rank) (c : BeaconContent) (h : ResetWaits s) : Sticky s (neighbourBeacon r c s) := by
  have filed : Secure s (fileBeacon r c s) :=
    .trans (.of_keeps (withNt_keeps s _) (by simp) (by simp)) ((raise_secure _ _).ite (.refl _))
  have joined (x : State) (j : JointUnit) : Secure x (setJoints j x) := .of_keeps (setJoints_keeps j x) (by simp) (by simp)
  have joints : FlagsHeld s (jointsFiled r c (fileBeacon r c s)) :=
    FlagsHeld.ite ((filed.trans (joined _ _)).held.trans (startHeld_held ((filed.trans (joined _ _)).waits h)))
      (filed.trans (joined _ _)).held
  exact Sticky.ite ((checkRankConflict_sticky _).after joints) joints.sticky

theorem beaconTaken_sticky (f : ReceivedFrame) (h : ResetWaits s) : Sticky s (beaconTaken f s) :=
  Sticky.ite (((conflictStop_sticky _ _).after (raise_held .duplicateRank s)).ite (neighbourBeacon_sticky _ _ h)) (.refl s)

theorem overrideTaken_held (f : ReceivedFrame) (s : State) : FlagsHeld s (overrideTaken f s) :=
  (raiseIf_held _ _ _).after (.of_su rfl)

theorem setupTaken_held (f : ReceivedFrame) (s : State) : FlagsHeld s (setupTaken f s) := by
  have install (mask : BitVec 8) (c : Constants) (x : State) : FlagsHeld x (installSetup mask c x) :=
    (setStation_held _ _).after (.of_su rfl)
  exact (raise_held _ s).ite ((raise_held _ s).ite ((install _ _ _).after (raiseIf_held _ _ s)))

theorem startChain_held (s : State) : FlagsHeld s (startChain s) := by
  have enable (x : State) : FlagsHeld x (startEnable x) := .of_keeps (startEnable_keeps x) (by simp)
  exact (enable _).after ((setStation_held .running s).andSame rfl)

theorem jobStartTaken_sticky (f : ReceivedFrame) (s : State) : Sticky s (jobStartTaken f s) := by
  unfold jobStartTaken
  split
  · exact .refl s
  · exact (raise_held _ s).sticky.ite ((beginFetch_sticky _ _ _).after (startChain_held s))

theorem jobClearTaken_held (s : State) : FlagsHeld s (jobClearTaken s) := by
  have retract (x : State) : FlagsHeld x (beginRetractFromHalted x) := .of_keeps (beginRetractFromHalted_keeps x) (by simp)
  have acts (x : State) : FlagsHeld x (if x.su.station = .unconfigured then x
      else if x.hs.state = .halted then beginRetractFromHalted x
      else if x.su.station = .stopped ∧ x.hs.state = .parked then setStation .idle (setExecutor .idle x) else x) :=
    (FlagsHeld.refl x).ite ((retract x).ite ((idleStation_held x).ite (.refl x)))
  exact (raise_held _ s).ite ((acts _).after (.of_su (jobCleared_su s)))

theorem passLoadTaken_held (f : ReceivedFrame) (s : State) : FlagsHeld s (passLoadTaken f s) := by
  rw [passLoadTaken_eq]
  exact .of_su rfl

theorem regionLoadTaken_held (f : ReceivedFrame) (s : State) : FlagsHeld s (regionLoadTaken f s) := .of_su rfl

theorem stationRequest_held (f : ReceivedFrame) (s : State) : FlagsHeld s (stationRequest f s) :=
  FlagsHeld.ite (.of_su rfl) (.refl s)

theorem completionRequest_held (f : ReceivedFrame) (s : State) : FlagsHeld s (completionRequest f s) := by
  have cleared : FlagsHeld s (if clearAsked f then setCompletionPending false s else s) :=
    FlagsHeld.ite (.of_su (setCompletionPending_su false s)) (.refl s)
  exact FlagsHeld.ite (cleared.andSame rfl) (.refl s)

theorem jointsRequest_held (f : ReceivedFrame) (s : State) : FlagsHeld s (jointsRequest f s) :=
  FlagsHeld.ite (.of_su rfl) (.refl s)

theorem formatRequest_held (f : ReceivedFrame) (s : State) : FlagsHeld s (formatRequest f s) :=
  FlagsHeld.ite (.of_su rfl) (.refl s)

/-- R187: the flags stay, or the request clears them all. -/
theorem attentionRequest_holds_or_clears (f : ReceivedFrame) (s : State) :
    FlagsHeld s (attentionRequest f s) ∨ (attentionRequest f s).su.flags = 0 := by
  unfold attentionRequest
  split
  · split
    · obtain ⟨l, cleared, -⟩ := clearFlags_eq s
      exact .inr (congrArg (fun x => x.su.flags) cleared)
    · exact .inl (.of_su rfl)
  · exact .inl (.refl s)

/-- R168, R169: a LINE RESET waits, or takes effect in this command. -/
theorem lineResetTaken_holds_or_resets (s : State) :
    (∀ g, s.flag g = true → (lineResetTaken s).flag g = true) ∨ (lineResetTaken s).su = resetUnit := by
  unfold lineResetTaken
  split
  · split
    · exact .inl fun _ hg => hg
    · rcases haltTaken_sticky (s.withSu { s.su with lineResetPending := true }) with held | ⟨-, reset⟩
      · exact .inl held.flags
      · exact .inr reset
  · split
    · exact .inl fun _ hg => hg
    · exact .inr rfl

/-! ### The commands -/

theorem onFrame_sticky (k : FrameKind) (bs : List Byte) {act : ReceivedFrame → State → State}
    (ha : ∀ f, Sticky (receptionEnds s) (act f (receptionEnds s))) : Sticky s (onFrame k bs act s) := by
  have ended : FlagsHeld s (receptionEnds s) := .of_su rfl
  unfold onFrame
  split
  · exact ended.sticky
  · exact ((ha _).after ended).settle

theorem lineStarts_keeps (rivals : List Byte) (s : State) : Keeps [.pli] s (lineStarts rivals s) := by
  unfold lineStarts
  split
  · exact .refl _ s
  · split
    · exact withPli_keeps s _
    · refine Keeps.ite ?_ (withPli_keeps s _)
      unfold beginTransmission
      split
      · exact withPli_keeps s _
      · exact withPli_keeps s _

theorem lineLeft_keeps (s : State) : Keeps [.pli] s (lineLeft s) := by
  unfold lineLeft
  split
  · exact .refl _ s
  · exact withPli_keeps s _
  · exact withPli_keeps s _

theorem feedbackReceived_held {message : List Byte} (h : exec (.feedbackReceived message) s = .next t) : FlagsHeld s t := by
  cases h
  split
  · exact .of_su rfl
  · exact .refl s

/-- The command is none of those that clear the flags themselves: power-up, the clearing request and the LINE RESET rows. -/
def clearsNoFlag : Instr → Bool
  | .powerUp _ => false
  | .lineReset _ => false
  | .lineResetTakesEffect => false
  | .statusRequestAttention _ => false
  | _ => true

theorem clearing_cases (c : Instr) : (∃ l, c = .powerUp l) ∨ (∃ bs, c = .lineReset bs) ∨ c = .lineResetTakesEffect
    ∨ (∃ bs, c = .statusRequestAttention bs) ∨ clearsNoFlag c = true := by
  cases c <;> simp [clearsNoFlag]

/-- R182: a command that does not clear the flags itself leaves them, or ends with the pending LINE RESET in effect. -/
theorem exec_sticky {c : Instr} (hc : clearsNoFlag c = true) (fits : (chainView s).Fits) (h : exec c s = .next t) :
    Sticky s t := by
  have waits := fits.resetWaits
  cases c with
  | powerUp l => cases hc
  | lineReset bs => cases hc
  | lineResetTakesEffect => cases hc
  | statusRequestAttention bs => cases hc
  | intervalClockExpiry o =>
    have counted : FlagsHeld s { s with clock := s.clock + 1 } := .of_su rfl
    have still : ResetWaits { s with clock := s.clock + 1 } := waits
    cases h
    exact ((orderedWork_sticky o still).after counted).settle
  | neighbourTableAgeing => cases h; exact (ageingEvent_sticky s).settle
  | entryGoesSilent r => cases h; exact (ageingEvent_sticky s).gated
  | travelComputation => cases h; exact (travelEvent_sticky s).settle
  | stall => cases h; exact (travelEvent_sticky s).gated
  | holdExpired => cases h; exact (travelEvent_sticky s).gated
  | headExpiryWork => cases h; exact (headExpiry_sticky _ fits).settle
  | spinTimeout => cases h; exact (headExpiry_sticky _ fits).gated
  | plungeTimeout => cases h; exact (headExpiry_sticky _ fits).gated
  | dwellEnd => cases h; exact (headExpiry_sticky _ fits).gated
  | forceLost => cases h; exact (headExpiry_sticky _ fits).gated
  | retractTimeout => cases h; exact (headExpiry_sticky _ fits).gated
  | pendingRetractStart => cases h; exact (headExpiry_sticky _ fits).gated
  | jointUnitExpiry => cases h; exact (jointExpiry_sticky s).settle
  | coolingRunsOut => cases h; exact (jointExpiry_sticky s).gated
  | pauseEnd => cases h; exact (pauseCounts_sticky s).gated
  | feedbackLost => cases h; exact (portWork_sticky s).gated
  | demandMessage => cases h; exact .inl (.of_su rfl)
  | beaconPeriodDue => cases h; exact (periodWork_sticky s).gated
  | holdOffEnd => cases h; exact (holdOffWork_sticky s).settle
  | frameStart rivals => cases h; exact .inl (.of_keeps (lineStarts_keeps rivals s) (by simp))
  | frameLeftLine => cases h; exact .inl (.of_keeps (lineLeft_keeps s) (by simp))
  | frameDiscarded bs => cases h; exact .inl (.of_su rfl)
  | beacon bs => cases h; exact onFrame_sticky _ bs fun f => beaconTaken_sticky f waits
  | heldRecordStart => cases h; exact (startHeld_sticky s).settle
  | halt bs => cases h; exact onFrame_sticky _ bs fun _ => haltTaken_sticky _
  | setup bs => cases h; exact onFrame_sticky _ bs fun f => (setupTaken_held f _).sticky
  | jobStart bs => cases h; exact onFrame_sticky _ bs fun f => jobStartTaken_sticky f _
  | jobClear bs => cases h; exact onFrame_sticky _ bs fun _ => (jobClearTaken_held _).sticky
  | override bs => cases h; exact onFrame_sticky _ bs fun f => (overrideTaken_held f _).sticky
  | passLoad bs => cases h; exact onFrame_sticky _ bs fun f => (passLoadTaken_held f _).sticky
  | regionLoad bs => cases h; exact onFrame_sticky _ bs fun f => (regionLoadTaken_held f _).sticky
  | statusRequestStation bs => cases h; exact onFrame_sticky _ bs fun f => (stationRequest_held f _).sticky
  | statusRequestCompletion bs => cases h; exact onFrame_sticky _ bs fun f => (completionRequest_held f _).sticky
  | statusRequestJoints bs => cases h; exact onFrame_sticky _ bs fun f => (jointsRequest_held f _).sticky
  | statusRequestFormat bs => cases h; exact onFrame_sticky _ bs fun f => (formatRequest_held f _).sticky
  | feedbackReceived m => exact (feedbackReceived_held h).sticky
  | feedbackTaken => cases h; exact (takeFeedback_sticky _ waits).settle
  | spinUpComplete => cases h; exact (takeFeedback_sticky _ waits).gated
  | plungeComplete => cases h; exact (takeFeedback_sticky _ waits).gated
  | retractComplete => cases h; exact (takeFeedback_sticky _ waits).gated
  | recordClose => cases h; exact (executorCloses_sticky s).settle
  | emergencyStopAsserted => cases h; exact Sticky.ite (.refl s) (estopAsserted_sticky s).settle
  | emergencyStopReleased => cases h; exact .inl (.of_su rfl)
  | clampLineFalse => cases h; exact (clampOpens_sticky s).gated
  | clampLineTrue => cases h; exact .inl (.of_su rfl)

theorem lineReset_holds_or_resets {bs : List Byte} (h : exec (.lineReset bs) s = .next t) :
    (∀ g, s.flag g = true → t.flag g = true) ∨ t.su = resetUnit := by
  cases h
  unfold onFrame
  split
  · exact .inl fun _ hg => hg
  · simp only [State.flag_settle, settle_su]
    exact lineResetTaken_holds_or_resets (receptionEnds s)

theorem lineResetTakesEffect_holds_or_resets (h : exec .lineResetTakesEffect s = .next t) :
    (∀ g, s.flag g = true → t.flag g = true) ∨ t.su = resetUnit := by
  cases h
  split
  · exact .inl fun _ hg => hg
  · exact .inr (settle_su _)

theorem attention_holds_or_clears {bs : List Byte} (h : exec (.statusRequestAttention bs) s = .next t) :
    (∀ g, s.flag g = true → t.flag g = true) ∨ t.su.flags = 0 := by
  cases h
  unfold onFrame
  split
  · exact .inl fun _ hg => hg
  · next f _ =>
    simp only [State.flag_settle, settle_su]
    rcases attentionRequest_holds_or_clears f (receptionEnds s) with held | cleared
    · exact .inl held.flags
    · exact .inr cleared

/-- Settles O8: the four rows that may clear the flags by themselves, and every other command. -/
theorem flagsAreSticky : Obligations.FlagsAreSticky := by
  intro c s t f disciplined h set
  rcases clearing_cases c with ⟨l, rfl⟩ | ⟨bs, rfl⟩ | rfl | ⟨bs, rfl⟩ | hc
  · exact .inr (.inl ⟨l, rfl⟩)
  · rcases lineReset_holds_or_resets h with held | reset
    · exact .inl (held f set)
    · exact .inr (.inr (.inr ⟨reset, .inr (.inr ⟨bs, rfl⟩)⟩))
  · rcases lineResetTakesEffect_holds_or_resets h with held | reset
    · exact .inl (held f set)
    · exact .inr (.inr (.inr ⟨reset, .inr (.inl rfl)⟩))
  · rcases attention_holds_or_clears h with held | cleared
    · exact .inl (held f set)
    · exact .inr (.inr (.inl ⟨bs, rfl, cleared⟩))
  · rcases exec_sticky hc ((disciplined_iff s).mp disciplined) h with held | ⟨pending, reset⟩
    · exact .inl (held.flags f set)
    · exact .inr (.inr (.inr ⟨reset, .inl pending⟩))

end Sys2Proof.Machine

namespace Sys2Proof.Machine

/-! ### Payloads, messages and frames read back (12.2, 12.4, 12.8) -/

theorem FrameKind.cls_lt (k : FrameKind) : k.cls < 4 := by cases k <;> decide

theorem FrameKind.code_lt (k : FrameKind) : k.code < 256 := by cases k <;> decide

/-- A SETUP carries its mask and every constant: the 38 bytes of 12.4. -/
theorem length_setupPayload (mask : BitVec 8) (c : Constants) : (setupPayload mask c).length = 38 := by
  delta setupPayload
  simp only [List.length_append, List.length_cons, List.length_nil, length_bytesOfNat, Nat.reduceAdd]

/-- Settles O11: each of the four encodings by its own read-back rule. -/
theorem commandsReadBack : Obligations.CommandsReadBack := by
  refine ⟨?setup, ?region, ?feedback, ?frame⟩
  case setup =>
    intro mask c carried
    exact ⟨length_setupPayload mask c, setupMask_setupPayload mask c, setupConstants_setupPayload mask carried⟩
  case region =>
    intro i w index base length derate lo hi
    have kind : RegionKind.ofCode (fieldAt (regionPayload i w) 10 1) = some w.kind := by
      rw [kind_regionPayload, RegionKind.ofCode_code]
    exact ⟨length_regionPayload i w, index_regionPayload index w, kind,
      windowOfPayload_regionPayload i base length derate lo hi⟩
  case feedback =>
    intro m position z force faultCode
    exact parseFeedback_feedbackBytes position z force faultCode
  case frame =>
    intro k sender dest payload hsender hdest hlength
    exact parseFrame_frameBytes k.cls_lt hsender hdest k.code_lt hlength

end Sys2Proof.Machine
